-- ==== Sys2Proof/Word.lean ====
section
/-! DEFINITION. The block's bit vectors and byte sequences (00_scope.md rules R14 and R15). -/

namespace Sys2Proof

/-- A byte (R15). -/
abbrev Byte := BitVec 8

/-- A 16-bit value: message ID, message length. -/
abbrev Half := BitVec 16

/-- A 32-bit value: the CRC registers, `u32`, `i32` and `f32` patterns. -/
abbrev Word := BitVec 32

/-- A 64-bit pattern: `f64` (R14, 42_payload_decoder.md R181). -/
abbrev Dword := BitVec 64

/-- A frame-buffer address, 17 bits wide (20_memory.md R61). -/
abbrev Addr := BitVec 17

end Sys2Proof
end

