-- ==== Sys2Proof/Config.lean ====
section
/-! DEFINITION. What an implementation of the block fixes (00_scope.md rules R9 to R12), and the values the spec leaves
free. -/

namespace Sys2Proof.Config

/-- HDR_WEEK_FIELD (R10): which header field carries the name "GPS week number". -/
inductive WeekField where
  | f5
  | f8
deriving DecidableEq, Repr

/-- The parameters that are plain data. State carries them so that every claim about a state is a claim about every
value of them (DESIGN CHOICE, safe: log 1). -/
structure Params where
  /-- MAX_PAYLOAD_LEN, 0..65535 (R9, D10). -/
  maxPayloadLen : Half
  /-- HDR_WEEK_FIELD (R10, D8). -/
  weekField     : WeekField
  /-- RAW_ON_DROP (R12, D13). -/
  rawOnDrop     : Bool
deriving DecidableEq, Repr

/-- The spec's defaults: MAX_PAYLOAD_LEN = 65535, HDR_WEEK_FIELD = 5, RAW_ON_DROP = true (R9, R10, R12). -/
def defaults : Params := { maxPayloadLen := 0xFFFF, weekField := .f5, rawOnDrop := true }

/-- FMUL, product of two f64 patterns: a total function of its operands and nothing else (R11, R231). Free value, safe: log 2. -/
opaque fmul : Dword → Dword → Dword

/-- FSIN (R11, R231). Free value, safe: log 2. -/
opaque fsin : Dword → Dword

/-- FCOS (R11, R231). Free value, safe: log 2. -/
opaque fcos : Dword → Dword

/-- RADIANS (R11, R231). Free value, safe: log 2. -/
opaque radians : Dword → Dword

/-- What a buffer byte that nothing has written holds, per address (10_state.md R28, R35: unspecified; U7: any value).
Free value, safe: log 3. -/
opaque unwrittenByte : Nat → Byte

/-- The bytes HDR.PARSE would take its fields from when its operand is longer than the 25 bytes it is ever given
(41_header_parser.md R155). Free value, safe: log 14. -/
opaque overlongHeader : List Byte → List Byte

end Sys2Proof.Config
end

