-- ==== Sys2Proof/Syntax.lean ====
section
/-! DEFINITION. The operations of the block: one constructor of `Instr` per row of opcode_table.json, in the table's order,
with the names their operands use (sequencer states, drop reasons). -/

namespace Sys2Proof

/-- The sequencer states (10_state.md R21, 43_frame_fsm.md R240). -/
inductive SeqState where
  | seekingSync
  | readingHeader
  | readingPayload
  | readingChecksum
  | dispatching
  | halted
deriving DecidableEq, Repr

/-- The drop reasons (60_exceptions.md R280). -/
inductive Reason where
  | malformedHeader
  | truncatedPayload
  | checksumMismatch
  | truncatedChecksum
  | payloadSizeMismatch
deriving DecidableEq, Repr

/-- The four formats of the operation table (30_encoding.md R120). -/
inductive Format where
  | wireSync
  | wireMsgid
  | fsm
  | func
deriving DecidableEq, Repr

/-- The operations. A `Byte` operand of an FSM row is the input `Byte(b)` the row takes. -/
inductive Instr where
  -- WIRE-SYNC
  | sync
  -- WIRE-MSGID
  | pldBestpos
  | pldBestvel
  | pldUnrec (id : Half)
  -- FSM
  | fsmSeek (b : Byte)
  | fsmSeekEos
  | fsmStop
  | fsmHdr (b : Byte)
  | fsmHdrLast (b : Byte)
  | fsmHdrEos
  | fsmPld (b : Byte)
  | fsmPldEos
  | fsmCrc (b : Byte)
  | fsmCrcLast (b : Byte)
  | fsmCrcEos
  | fsmDisp
  | fsmHalt
  | fsmReset
  | fsmDrop (reason : Reason)
  -- FUNC: CRC Engine
  | crcBit (v : Word)
  | crcLoop8 (v : Word)
  | crcStep (acc : Word) (b : Byte)
  | crcCompute (data : List Byte)
  | crcVerify (data : List Byte) (received : Word)
  | crcClr
  | crcAbsorb (b : Byte)
  -- FUNC: extractors
  | extU8 (a : Addr)
  | extI8 (a : Addr)
  | extU16 (a : Addr)
  | extU32 (a : Addr)
  | extI32 (a : Addr)
  | extF32 (a : Addr)
  | extF64 (a : Addr)
  -- FUNC: Header Decoder
  | hdrParse (h : List Byte)
  | hdrValidate (headerLength : Byte) (consumedLen : Nat)
  -- FUNC: Payload Decoder
  | pldDispatch (messageId : Half) (len : Half)
  | pldFixq (solStatus posType : Word)
  | pldCov (latStd lonStd hgtStd : Word)
  | pldSats (svs solnSvs : Byte)
  | pldVx (h a : Dword)
  | pldVy (h a : Dword)
deriving DecidableEq, Repr

end Sys2Proof
end

