-- ==== Sys2Proof/WellFormed.lean ====
section
/-! DEFINITION. Which operations are well formed: operands the spec gives the row, in the range it gives them. -/

namespace Sys2Proof

/-- An address is an integer in 0..65566 (20_memory.md R61). -/
def Addr.inRange (a : Addr) : Bool := a.toNat ≤ 65566

/-- The model's encoding carries a sequence's length and a `consumed_len` in 32 bits (DESIGN CHOICE: log 9). -/
def fitsCount (k : Nat) : Bool := k < 4294967296

/-- The operand checks: PLD.UNREC takes every message ID but 42 and 99 (42_payload_decoder.md R184); an extractor's
operand is an address, any address (20_memory.md R61, R67); HDR.PARSE is given at most 25 bytes (41_header_parser.md R155). -/
def Instr.wellFormed : Instr → Bool
  | .sync => true
  | .pldBestpos => true
  | .pldBestvel => true
  | .pldUnrec id => id != 42 && id != 99
  | .fsmSeek _ => true
  | .fsmSeekEos => true
  | .fsmStop => true
  | .fsmHdr _ => true
  | .fsmHdrLast _ => true
  | .fsmHdrEos => true
  | .fsmPld _ => true
  | .fsmPldEos => true
  | .fsmCrc _ => true
  | .fsmCrcLast _ => true
  | .fsmCrcEos => true
  | .fsmDisp => true
  | .fsmHalt => true
  | .fsmReset => true
  | .fsmDrop _ => true
  | .crcBit _ => true
  | .crcLoop8 _ => true
  | .crcStep _ _ => true
  | .crcCompute data => fitsCount data.length
  | .crcVerify data _ => fitsCount data.length
  | .crcClr => true
  | .crcAbsorb _ => true
  | .extU8 a => a.inRange
  | .extI8 a => a.inRange
  | .extU16 a => a.inRange
  | .extU32 a => a.inRange
  | .extI32 a => a.inRange
  | .extF32 a => a.inRange
  | .extF64 a => a.inRange
  | .hdrParse h => h.length ≤ 25
  | .hdrValidate _ c => fitsCount c
  | .pldDispatch _ _ => true
  | .pldFixq _ _ => true
  | .pldCov _ _ _ => true
  | .pldSats _ _ => true
  | .pldVx _ _ => true
  | .pldVy _ _ => true

end Sys2Proof
end

