-- ==== Sys2Proof/Decode.lean ====
section
/-! DEFINITION. Byte order, the codes of 30_encoding.md, decoding of operation words, and the encoder.

The spec gives bit patterns for three formats only: the 24-bit preamble (WIRE-SYNC), the 16-bit message ID (WIRE-MSGID) and
the 3-bit state code (FSM, bits 2..0 of an FSM word). It gives no selector for the input kind and the `cnt` condition of an
FSM row, nor for a FUNC row (30_encoding.md R120). Those bits are the model's own (DESIGN CHOICE, safe: log 9). -/

namespace Sys2Proof

/-- `le(d)`: the unsigned little-endian reading of a byte sequence, first byte least significant (00_scope.md R15). -/
def le : List Byte → Nat
  | [] => 0
  | b :: bs => b.toNat + 256 * le bs

/-- The `k` low bytes of a number, least significant first. -/
def leBytes : Nat → Nat → List Byte
  | 0, _ => []
  | k + 1, v => BitVec.ofNat 8 v :: leBytes k (v / 256)

/-- Sequencer state codes (30_encoding.md R107). -/
def SeqState.code : SeqState → BitVec 3
  | .seekingSync => 0
  | .readingHeader => 1
  | .readingPayload => 2
  | .readingChecksum => 3
  | .dispatching => 4
  | .halted => 5

/-- The state of a code; codes 6 and 7 are unused (R107). -/
def SeqState.ofCode (c : BitVec 3) : Option SeqState :=
  match c.toNat with
  | 0 => some .seekingSync
  | 1 => some .readingHeader
  | 2 => some .readingPayload
  | 3 => some .readingChecksum
  | 4 => some .dispatching
  | 5 => some .halted
  | _ => none

/-- Drop reason codes (30_encoding.md R108); 0 means no drop. -/
def Reason.code : Reason → BitVec 3
  | .malformedHeader => 1
  | .truncatedPayload => 2
  | .checksumMismatch => 3
  | .truncatedChecksum => 4
  | .payloadSizeMismatch => 5

/-- The reason of a code; 0, 6 and 7 name none (R108). -/
def Reason.ofCode (c : Nat) : Option Reason :=
  match c with
  | 1 => some .malformedHeader
  | 2 => some .truncatedPayload
  | 3 => some .checksumMismatch
  | 4 => some .truncatedChecksum
  | 5 => some .payloadSizeMismatch
  | _ => none

/-- Why a word is not an operation. -/
inductive Reject where
  /-- Fewer bytes than the operation's operands need. -/
  | tooShort
  /-- A WIRE-SYNC word other than AA 44 12 (30_encoding.md R91). -/
  | notThePreamble
  /-- State codes 6 and 7 (R107). -/
  | unusedStateCode
  /-- An input the state does not accept (43_frame_fsm.md R243). -/
  | inputNotAccepted
  /-- An input kind the model's FSM word does not use. -/
  | unusedInputKind
  /-- The `cnt` condition bit on a row that has no such condition, or bit 7. -/
  | unusedBits
  /-- Drop reason codes 0, 6 and up (R108). -/
  | unusedReasonCode
  /-- A FUNC selector above 21. -/
  | unusedSelector
  /-- An extractor operand outside the addresses of `buf` (20_memory.md R61). -/
  | addressOutOfRange
  /-- A HDR.PARSE operand of more than 25 bytes (41_header_parser.md R155). -/
  | headerTooLong
deriving DecidableEq, Repr

/-- What decoding gives: an operation and the bytes after it, or a rejection by name. -/
inductive Decoded where
  | ok (i : Instr) (rest : List Byte)
  | reject (r : Reject)
deriving DecidableEq, Repr

/-- Take a little-endian operand of `k` bytes off the front. -/
def takeWord (k : Nat) (bs : List Byte) (f : BitVec (8 * k) → List Byte → Decoded) : Decoded :=
  if k ≤ bs.length then f (BitVec.ofNat (8 * k) (le (bs.take k))) (bs.drop k) else .reject .tooShort

/-- Take a byte sequence carried behind its 4-byte length. -/
def takeSeq (bs : List Byte) (f : List Byte → List Byte → Decoded) : Decoded :=
  takeWord 4 bs fun k r =>
    if k.toNat ≤ r.length then f (r.take k.toNat) (r.drop k.toNat) else .reject .tooShort

/-- Take a buffer address (3 bytes), an integer in 0..65566 (20_memory.md R61). -/
def takeAddr (bs : List Byte) (f : Addr → List Byte → Decoded) : Decoded :=
  takeWord 3 bs fun a r =>
    if a.toNat ≤ 65566 then f (a.setWidth 17) r else .reject .addressOutOfRange

/-- WIRE-SYNC: the preamble, in stream order AA 44 12 (30_encoding.md R91, R120). -/
def decodeSync (bs : List Byte) : Decoded :=
  takeWord 3 bs fun w r => if w = 0x1244AA then .ok .sync r else .reject .notThePreamble

/-- WIRE-MSGID: the 16-bit message ID, all bits compared (30_encoding.md R98). -/
def decodeMsgid (bs : List Byte) : Decoded :=
  takeWord 2 bs fun id r =>
    if id = 42 then .ok .pldBestpos r else if id = 99 then .ok .pldBestvel r else .ok (.pldUnrec id) r

/-- An FSM row that takes `Byte(b)`, or the row of a state that takes none (kind 0). -/
def decodeFsmByte (state : Nat) (last : Bool) (bs : List Byte) : Decoded :=
  match state, last with
  | 0, false => takeWord 1 bs fun b r => .ok (.fsmSeek b) r
  | 1, false => takeWord 1 bs fun b r => .ok (.fsmHdr b) r
  | 1, true => takeWord 1 bs fun b r => .ok (.fsmHdrLast b) r
  | 2, false => takeWord 1 bs fun b r => .ok (.fsmPld b) r
  | 3, false => takeWord 1 bs fun b r => .ok (.fsmCrc b) r
  | 3, true => takeWord 1 bs fun b r => .ok (.fsmCrcLast b) r
  | 4, false => .ok .fsmDisp bs
  | 5, false => .ok .fsmHalt bs
  | 6, _ => .reject .unusedStateCode
  | 7, _ => .reject .unusedStateCode
  | _, _ => .reject .unusedBits

/-- An FSM row that takes `EOS` (kind 1). -/
def decodeFsmEos (state : Nat) (bs : List Byte) : Decoded :=
  match state with
  | 0 => .ok .fsmSeekEos bs
  | 1 => .ok .fsmHdrEos bs
  | 2 => .ok .fsmPldEos bs
  | 3 => .ok .fsmCrcEos bs
  | 4 => .reject .inputNotAccepted
  | 5 => .reject .inputNotAccepted
  | _ => .reject .unusedStateCode

/-- The FSM row that takes `Stop` (kind 2). -/
def decodeFsmStop (state : Nat) (bs : List Byte) : Decoded :=
  match state with
  | 0 => .ok .fsmStop bs
  | 6 => .reject .unusedStateCode
  | 7 => .reject .unusedStateCode
  | _ => .reject .inputNotAccepted

/-- FSM.DROP with its reason code (kind 4). -/
def decodeFsmDrop (bs : List Byte) : Decoded :=
  takeWord 1 bs fun c r =>
    match Reason.ofCode c.toNat with
    | some reason => .ok (.fsmDrop reason) r
    | none => .reject .unusedReasonCode

/-- FSM: bits 2..0 the state code (R107, R120); bits 5..3 the input kind (0 a byte or none, 1 EOS, 2 Stop, 3 rst, 4 a failing
check); bit 6 the `cnt` condition of the LAST rows. The bits above 2 are the model's own (log 9). -/
def decodeFsm (bs : List Byte) : Decoded :=
  takeWord 1 bs fun w r =>
    if w.toNat < 128 then
      match w.toNat / 8 % 8, w.getLsbD 6 with
      | 0, last => decodeFsmByte (w.toNat % 8) last r
      | 1, false => decodeFsmEos (w.toNat % 8) r
      | 2, false => decodeFsmStop (w.toNat % 8) r
      | 3, false => .ok .fsmReset r
      | 4, false => decodeFsmDrop r
      | 5, _ => .reject .unusedInputKind
      | 6, _ => .reject .unusedInputKind
      | 7, _ => .reject .unusedInputKind
      | _, _ => .reject .unusedBits
    else .reject .unusedBits

/-- The operands of the FUNC row with a selector; selectors number the FUNC rows in the table's order (log 9). -/
def decodeFuncRow (selector : Nat) (bs : List Byte) : Decoded :=
  match selector with
  | 0 => takeWord 4 bs fun v r => .ok (.crcBit v) r
  | 1 => takeWord 4 bs fun v r => .ok (.crcLoop8 v) r
  | 2 => takeWord 4 bs fun p r => takeWord 1 r fun b r => .ok (.crcStep p b) r
  | 3 => takeSeq bs fun d r => .ok (.crcCompute d) r
  | 4 => takeSeq bs fun d r => takeWord 4 r fun x r => .ok (.crcVerify d x) r
  | 5 => .ok .crcClr bs
  | 6 => takeWord 1 bs fun b r => .ok (.crcAbsorb b) r
  | 7 => takeAddr bs fun a r => .ok (.extU8 a) r
  | 8 => takeAddr bs fun a r => .ok (.extI8 a) r
  | 9 => takeAddr bs fun a r => .ok (.extU16 a) r
  | 10 => takeAddr bs fun a r => .ok (.extU32 a) r
  | 11 => takeAddr bs fun a r => .ok (.extI32 a) r
  | 12 => takeAddr bs fun a r => .ok (.extF32 a) r
  | 13 => takeAddr bs fun a r => .ok (.extF64 a) r
  | 14 => takeSeq bs fun h r => if h.length ≤ 25 then .ok (.hdrParse h) r else .reject .headerTooLong
  | 15 => takeWord 1 bs fun hl r => takeWord 4 r fun c r => .ok (.hdrValidate hl c.toNat) r
  | 16 => takeWord 2 bs fun id r => takeWord 2 r fun l r => .ok (.pldDispatch id l) r
  | 17 => takeWord 4 bs fun ss r => takeWord 4 r fun pt r => .ok (.pldFixq ss pt) r
  | 18 => takeWord 4 bs fun x r => takeWord 4 r fun y r => takeWord 4 r fun z r => .ok (.pldCov x y z) r
  | 19 => takeWord 1 bs fun x r => takeWord 1 r fun y r => .ok (.pldSats x y) r
  | 20 => takeWord 8 bs fun h r => takeWord 8 r fun a r => .ok (.pldVx h a) r
  | 21 => takeWord 8 bs fun h r => takeWord 8 r fun a r => .ok (.pldVy h a) r
  | _ => .reject .unusedSelector

/-- FUNC: one selector byte, then the operands (log 9). -/
def decodeFunc (bs : List Byte) : Decoded :=
  takeWord 1 bs fun sel r => decodeFuncRow sel.toNat r

/-- Decoding of a word of a format: total, and a word that is no operation is rejected by name. -/
def decode (f : Format) (bs : List Byte) : Decoded :=
  match f with
  | .wireSync => decodeSync bs
  | .wireMsgid => decodeMsgid bs
  | .fsm => decodeFsm bs
  | .func => decodeFunc bs

/-- The format of a row (opcode_table.json, key "format"). -/
def Instr.format : Instr → Format
  | .sync => .wireSync
  | .pldBestpos => .wireMsgid
  | .pldBestvel => .wireMsgid
  | .pldUnrec _ => .wireMsgid
  | .fsmSeek _ => .fsm
  | .fsmSeekEos => .fsm
  | .fsmStop => .fsm
  | .fsmHdr _ => .fsm
  | .fsmHdrLast _ => .fsm
  | .fsmHdrEos => .fsm
  | .fsmPld _ => .fsm
  | .fsmPldEos => .fsm
  | .fsmCrc _ => .fsm
  | .fsmCrcLast _ => .fsm
  | .fsmCrcEos => .fsm
  | .fsmDisp => .fsm
  | .fsmHalt => .fsm
  | .fsmReset => .fsm
  | .fsmDrop _ => .fsm
  | .crcBit _ => .func
  | .crcLoop8 _ => .func
  | .crcStep _ _ => .func
  | .crcCompute _ => .func
  | .crcVerify _ _ => .func
  | .crcClr => .func
  | .crcAbsorb _ => .func
  | .extU8 _ => .func
  | .extI8 _ => .func
  | .extU16 _ => .func
  | .extU32 _ => .func
  | .extI32 _ => .func
  | .extF32 _ => .func
  | .extF64 _ => .func
  | .hdrParse _ => .func
  | .hdrValidate _ _ => .func
  | .pldDispatch _ _ => .func
  | .pldFixq _ _ => .func
  | .pldCov _ _ _ => .func
  | .pldSats _ _ => .func
  | .pldVx _ _ => .func
  | .pldVy _ _ => .func

/-- An FSM word's first byte, from its fields. -/
def fsmByte (st : SeqState) (kind : Nat) (last : Bool) : Byte :=
  BitVec.ofNat 8 (st.code.toNat + 8 * kind + (if last then 64 else 0))

/-- A byte sequence behind its 4-byte length. -/
def encodeSeq (d : List Byte) : List Byte := leBytes 4 d.length ++ d

/-- The words of an operation, in the order its decoder reads them: the preamble of R91, the message ID of R98, the state
code of R107, or the model's FUNC selector (log 9), then the operands. -/
def encode : Instr → List Byte
  | .sync => [0xAA, 0x44, 0x12]
  | .pldBestpos => leBytes 2 42
  | .pldBestvel => leBytes 2 99
  | .pldUnrec id => leBytes 2 id.toNat
  | .fsmSeek b => [fsmByte .seekingSync 0 false, b]
  | .fsmSeekEos => [fsmByte .seekingSync 1 false]
  | .fsmStop => [fsmByte .seekingSync 2 false]
  | .fsmHdr b => [fsmByte .readingHeader 0 false, b]
  | .fsmHdrLast b => [fsmByte .readingHeader 0 true, b]
  | .fsmHdrEos => [fsmByte .readingHeader 1 false]
  | .fsmPld b => [fsmByte .readingPayload 0 false, b]
  | .fsmPldEos => [fsmByte .readingPayload 1 false]
  | .fsmCrc b => [fsmByte .readingChecksum 0 false, b]
  | .fsmCrcLast b => [fsmByte .readingChecksum 0 true, b]
  | .fsmCrcEos => [fsmByte .readingChecksum 1 false]
  | .fsmDisp => [fsmByte .dispatching 0 false]
  | .fsmHalt => [fsmByte .halted 0 false]
  | .fsmReset => [fsmByte .seekingSync 3 false]
  | .fsmDrop reason => [fsmByte .seekingSync 4 false, reason.code.setWidth 8]
  | .crcBit v => 0 :: leBytes 4 v.toNat
  | .crcLoop8 v => 1 :: leBytes 4 v.toNat
  | .crcStep p b => 2 :: (leBytes 4 p.toNat ++ [b])
  | .crcCompute d => 3 :: encodeSeq d
  | .crcVerify d x => 4 :: (encodeSeq d ++ leBytes 4 x.toNat)
  | .crcClr => [5]
  | .crcAbsorb b => [6, b]
  | .extU8 a => 7 :: leBytes 3 a.toNat
  | .extI8 a => 8 :: leBytes 3 a.toNat
  | .extU16 a => 9 :: leBytes 3 a.toNat
  | .extU32 a => 10 :: leBytes 3 a.toNat
  | .extI32 a => 11 :: leBytes 3 a.toNat
  | .extF32 a => 12 :: leBytes 3 a.toNat
  | .extF64 a => 13 :: leBytes 3 a.toNat
  | .hdrParse h => 14 :: encodeSeq h
  | .hdrValidate hl c => 15 :: hl :: leBytes 4 c
  | .pldDispatch id l => 16 :: (leBytes 2 id.toNat ++ leBytes 2 l.toNat)
  | .pldFixq ss pt => 17 :: (leBytes 4 ss.toNat ++ leBytes 4 pt.toNat)
  | .pldCov x y z => 18 :: (leBytes 4 x.toNat ++ (leBytes 4 y.toNat ++ leBytes 4 z.toNat))
  | .pldSats x y => [19, x, y]
  | .pldVx h a => 20 :: (leBytes 8 h.toNat ++ leBytes 8 a.toNat)
  | .pldVy h a => 21 :: (leBytes 8 h.toNat ++ leBytes 8 a.toNat)

/-- A row's match and mask as opcode_table.json prints them (30_encoding.md R120). -/
structure TableRow where
  pattern : Nat
  mask    : Nat
deriving DecidableEq, Repr

/-- The row of each operation in opcode_table.json. -/
def Instr.row : Instr → TableRow
  | .sync => ⟨0x1244AA, 0xFFFFFF⟩
  | .pldBestpos => ⟨0x002A, 0xFFFF⟩
  | .pldBestvel => ⟨0x0063, 0xFFFF⟩
  | .pldUnrec _ => ⟨0, 0⟩
  | .fsmSeek _ => ⟨0, 7⟩
  | .fsmSeekEos => ⟨0, 7⟩
  | .fsmStop => ⟨0, 7⟩
  | .fsmHdr _ => ⟨1, 7⟩
  | .fsmHdrLast _ => ⟨1, 7⟩
  | .fsmHdrEos => ⟨1, 7⟩
  | .fsmPld _ => ⟨2, 7⟩
  | .fsmPldEos => ⟨2, 7⟩
  | .fsmCrc _ => ⟨3, 7⟩
  | .fsmCrcLast _ => ⟨3, 7⟩
  | .fsmCrcEos => ⟨3, 7⟩
  | .fsmDisp => ⟨4, 7⟩
  | .fsmHalt => ⟨5, 7⟩
  | .fsmReset => ⟨0, 0⟩
  | .fsmDrop _ => ⟨0, 0⟩
  | .crcBit _ => ⟨0, 0⟩
  | .crcLoop8 _ => ⟨0, 0⟩
  | .crcStep _ _ => ⟨0, 0⟩
  | .crcCompute _ => ⟨0, 0⟩
  | .crcVerify _ _ => ⟨0, 0⟩
  | .crcClr => ⟨0, 0⟩
  | .crcAbsorb _ => ⟨0, 0⟩
  | .extU8 _ => ⟨0, 0⟩
  | .extI8 _ => ⟨0, 0⟩
  | .extU16 _ => ⟨0, 0⟩
  | .extU32 _ => ⟨0, 0⟩
  | .extI32 _ => ⟨0, 0⟩
  | .extF32 _ => ⟨0, 0⟩
  | .extF64 _ => ⟨0, 0⟩
  | .hdrParse _ => ⟨0, 0⟩
  | .hdrValidate _ _ => ⟨0, 0⟩
  | .pldDispatch _ _ => ⟨0, 0⟩
  | .pldFixq _ _ => ⟨0, 0⟩
  | .pldCov _ _ _ => ⟨0, 0⟩
  | .pldSats _ _ => ⟨0, 0⟩
  | .pldVx _ _ => ⟨0, 0⟩
  | .pldVy _ _ => ⟨0, 0⟩

/-- The format a table word belongs to, told by its width: 24 bits the preamble, 16 the message ID, up to 8 the state code;
a row with no bits at all, or more bits, is a FUNC row (DESIGN CHOICE: log 9). -/
def formatOfWidth (nbits : Nat) : Format :=
  if nbits = 24 then .wireSync else if nbits = 16 then .wireMsgid
  else if nbits ≠ 0 ∧ nbits ≤ 8 then .fsm else .func

/-- A table word's bytes, first byte its least significant, with bytes of zeros after them for the operands. -/
def tableBytes (nbits w : Nat) : List Byte := leBytes ((nbits + 7) / 8) w ++ List.replicate 24 0

/-- The operation the decoder reads from a word numbered as opcode_table.json numbers it. -/
def decodeTableWord (nbits w : Nat) : Option Instr :=
  match decode (formatOfWidth nbits) (tableBytes nbits w) with
  | .ok i _ => some i
  | .reject _ => none

end Sys2Proof
end

