-- ==== Sys2Proof/Machine/Records.lean ====
section
/-! DEFINITION. The records and events the block hands to the sink (30_encoding.md section 7), the values its functions
deliver, and the inputs its environment presents. Fields of type `iN` are their N bits; the signed reading is `toInt`
(30_encoding.md R97). -/

namespace Sys2Proof.Machine

/-- The Header record: the 13 fields by position (30_encoding.md R93, 41_header_parser.md R155). -/
structure Header where
  /-- `header_length`, u8 -/
  f0  : Byte
  /-- `message_id`, u16 -/
  f1  : Half
  /-- unused, i8 -/
  f2  : Byte
  /-- unused, u8 -/
  f3  : Byte
  /-- `message_length`, u16 -/
  f4  : Half
  /-- u16; `gps_week` when HDR_WEEK_FIELD = 5 -/
  f5  : Half
  /-- u8 -/
  f6  : Byte
  /-- u8 -/
  f7  : Byte
  /-- u16; `gps_week` when HDR_WEEK_FIELD = 8 -/
  f8  : Half
  /-- `ms_of_week`, i32 -/
  f9  : Word
  /-- `receiver_status`, u32 -/
  f10 : Word
  /-- reserved, u16 -/
  f11 : Half
  /-- reserved, u16 -/
  f12 : Half
deriving DecidableEq, Repr

/-- Fix quality (42_payload_decoder.md R207). -/
inductive FixQuality where
  | noFix
  | gpsFix
  | sbasFix
deriving DecidableEq, Repr

/-- Covariance type: the one value the block produces (30_encoding.md R111). -/
inductive CovType where
  | diagonalKnown
deriving DecidableEq, Repr

/-- The Position Fix Record, in the order of 42_payload_decoder.md R210. -/
structure PositionFix where
  solStatus   : Word
  posType     : Word
  lat         : Dword
  lon         : Dword
  hgt         : Dword
  undulation  : Word
  datumId     : Word
  latStd      : Word
  lonStd      : Word
  hgtStd      : Word
  baseId      : Word
  diffAge     : Word
  solAge      : Word
  svs         : Byte
  solnSvs     : Byte
  rsv0        : Byte
  rsv1        : Byte
  rsv2        : Byte
  rsv3        : Byte
  rsv4        : Byte
  rsv5        : Byte
  fixQuality  : FixQuality
  covType     : CovType
  varLat      : Word
  varLon      : Word
  varHgt      : Word
  satsVisible : Byte
  satsUsed    : Byte
deriving DecidableEq, Repr

/-- The Velocity Fix Record, in the order of 42_payload_decoder.md R220. -/
structure VelocityFix where
  solStatus : Word
  velType   : Word
  latency   : Word
  age       : Word
  horSpeed  : Dword
  trackGnd  : Dword
  vertSpeed : Dword
  rsv       : Word
  vx        : Dword
  vy        : Dword
deriving DecidableEq, Repr

/-- The Decoded Frame (00_scope.md R19, 30_encoding.md R112). -/
inductive Body where
  | positionFix (rec : PositionFix)
  | velocityFix (rec : VelocityFix)
  | unrecognized (id : Half)
deriving DecidableEq, Repr

/-- The events handed to the sink (30_encoding.md R112, R113). `raw` is absent when RAW_ON_DROP is false. -/
inductive Event where
  | frame (hdr : Header) (body : Body)
  | dropped (reason : Reason) (raw : Option (List Byte))
deriving DecidableEq, Repr

/-- An event on the sink port, with the raw length the port shows beside it (30_encoding.md R115: `raw_len` = n). -/
structure Offer where
  event  : Event
  rawLen : BitVec 17
deriving DecidableEq, Repr

/-- The covariance of a position fix (42_payload_decoder.md R208); the off-diagonal terms are zero and not carried. -/
structure Covariance where
  varLat  : Word
  varLon  : Word
  varHgt  : Word
  covType : CovType
deriving DecidableEq, Repr

/-- What a FUNC or WIRE-MSGID operation delivers on the result port (the model's own port: log 8). -/
inductive Value where
  | none
  | bit (v : Bool)
  | u8 (v : Byte)
  | i8 (v : Byte)
  | u16 (v : Half)
  | u32 (v : Word)
  | i32 (v : Word)
  | f32 (v : Word)
  | f64 (v : Dword)
  | header (hdr : Header)
  | error (reason : Reason)
  | body (b : Body)
  | fixQuality (q : FixQuality)
  | covariance (c : Covariance)
  | satCounts (visible used : Byte)
deriving DecidableEq, Repr

/-- What the environment presents, in order: a byte of the byte source, or a change of an input level (log 4). `eos`
cannot be taken back (43_frame_fsm.md R241: end of stream is sticky; log 5). -/
inductive Feed where
  | byte (b : Byte)
  | eos
  | stop (level : Bool)
  | rst (level : Bool)
  | sink (ready : Bool)
deriving DecidableEq, Repr

/-- An encoded operation on the operation port (the model's own port: log 7). -/
structure OpWord where
  format : Format
  bytes  : List Byte
deriving DecidableEq, Repr

end Sys2Proof.Machine
end

