-- ==== Sys2Proof/Machine/State.lean ====
section
/-! DEFINITION. The state of the block and of its environment, and the ways a step can stop. -/

namespace Sys2Proof.Machine

/-- The frame buffer's contents: (address, byte) pairs, addresses strictly rising. -/
abbrev Memory := List Host.Cell

/-- Everything one step reads or writes. -/
structure State where
  -- the block (10_state.md R20)
  /-- The sequencer state (R21). -/
  st       : SeqState
  /-- The sync match count (R22). -/
  m        : BitVec 2
  /-- The byte counter of the section (R23). -/
  cnt      : BitVec 16
  /-- The frame byte count (R24). -/
  n        : BitVec 17
  /-- The latched message length (R25). -/
  L        : BitVec 16
  /-- The CRC accumulator (R26). -/
  crcAcc   : BitVec 32
  /-- The received checksum (R27). -/
  crcRx    : BitVec 32
  /-- The frame buffer (R28). -/
  buf      : Memory
  /-- The event being handed over (R35 "event outputs", 43_frame_fsm.md R242). -/
  evt      : Option Offer
  -- the environment (10_state.md R20; 30_encoding.md R114 to R116)
  /-- What the environment presents next. -/
  feed     : List Feed
  /-- Bytes consumed so far: the byte source's read cursor (R29). -/
  cursor   : Nat
  /-- The byte source reports end of stream (`src_eos`). -/
  eos      : Bool
  /-- Level of `stop_req`. -/
  stopReq  : Bool
  /-- Level of `rst`. -/
  rst      : Bool
  /-- Level of `evt_ready`. -/
  evtReady : Bool
  /-- The events the sink has received, oldest first. -/
  trace    : List Event
  -- the parameters (00_scope.md R9, R10, R12; log 1)
  cfg      : Config.Params
  -- the model's own ports
  /-- An operation to be run by itself (log 7). -/
  op       : Option OpWord
  /-- What the last function operation delivered (log 8). -/
  result   : Value
deriving DecidableEq, Repr

/-- The ways the machine stops with a fault: none. There is no fault from an address (20_memory.md R72; log 11), an extractor
raises nothing (41_header_parser.md section 1), and the block's only exceptions are the drops, which are taken
(60_exceptions.md R280). -/
inductive Fault where
deriving DecidableEq, Repr

/-- The ways an operation has no meaning. -/
inductive Refusal where
  /-- Raised by an arm of `exec` that has no meaning yet. Safe. -/
  | notModelled (mnemonic : String)
  /-- Raised by `step` when the word on the operation port decodes to nothing: an unused code or an input its state does not
  accept (30_encoding.md R107, R108; 43_frame_fsm.md R243). Safe (log 9). -/
  | noSuchOperation (why : Reject)
deriving DecidableEq, Repr

/-- The outcome of an operation or a step. -/
abbrev Result := Host.Outcome State Fault Refusal

/-- The state right after reset (10_state.md R35), in an environment that presents nothing and whose sink is ready
(log 12), with the spec's default parameters (log 1) and the model's own ports empty. -/
def State.reset : State where
  st := .seekingSync
  m := 0
  cnt := 0
  n := 0
  L := 0
  crcAcc := 0
  crcRx := 0
  buf := []
  evt := none
  feed := []
  cursor := 0
  eos := false
  stopReq := false
  rst := false
  evtReady := true
  trace := []
  cfg := Config.defaults
  op := none
  result := .none

end Sys2Proof.Machine
end

