-- ==== Sys2Proof/Machine/Ops.lean ====
section
/-! DEFINITION. The named operations over the frame buffer, the registers and the event port, and `raise Drop`, the block's
only exception primitive (00_scope.md R16, R17). -/

namespace Sys2Proof.Machine

/-! ### The frame buffer -/

/-- What an address that is not listed reads as: no value (10_state.md R35). -/
def Memory.unlisted : Option Byte := none

/-- The byte listed at an address. -/
def Memory.find : Memory → Nat → Option Byte
  | [], _ => Memory.unlisted
  | (k, v) :: r, a => if k = a then some v else Memory.find r a

/-- Write one byte, keeping the addresses strictly rising. -/
def Memory.write : Memory → Nat → Byte → Memory
  | [], a, b => [(a, b)]
  | (k, v) :: r, a, b =>
    if a < k then (a, b) :: (k, v) :: r
    else if k = a then (a, b) :: r
    else (k, v) :: Memory.write r a b

/-- The canonical form: addresses strictly rising. No entry can equal what an unlisted address reads as, because that is
no value. -/
abbrev Memory.wf (mem : Memory) : Prop := (mem.map Prod.fst).Pairwise (· < ·)

/-- `buf` has a byte at `a`: it is `buf[0 .. 31 + MAX_PAYLOAD_LEN]` (R28). -/
def State.inSpace (s : State) (a : Nat) : Bool := a < 32 + s.cfg.maxPayloadLen.toNat

/-- One byte of `buf`; a byte nothing has written is a free value of its address (R28, R35, U7; log 3). So is a byte past the
end of `buf`, which nothing can write (log 11). -/
def State.readByte (s : State) (a : Nat) : Byte := (s.buf.find a).getD (Config.unwrittenByte a)

/-- `buf[a .. a+k-1]` in stream order. -/
def State.readBytes (s : State) : Nat → Nat → List Byte
  | _, 0 => []
  | a, k + 1 => s.readByte a :: s.readBytes (a + 1) k

/-- `MemRead(a, w)`: little-endian, 8w bits (20_memory.md R62). -/
def State.memRead (s : State) (a w : Nat) : BitVec (8 * w) := BitVec.ofNat (8 * w) (le (s.readBytes a w))

/-- `MemWrite(a, 1, v)` (20_memory.md R62). -/
def State.memWrite (s : State) (a : Nat) (v : Byte) : State := { s with buf := s.buf.write a v }

/-- A sequencer write whose address depends on `L` or `cnt`. No fault comes from an address (20_memory.md R72): where `buf` has
no byte at `a`, which no run forms, no byte of `buf` changes (log 11). -/
def State.store (s : State) (a : Nat) (v : Byte) : State := if s.inSpace a then s.memWrite a v else s

/-- `buf[0..n-1]`, the raw bytes of the frame in progress (30_encoding.md R113). -/
def State.rawBytes (s : State) : List Byte := s.readBytes 0 s.n.toNat

/-! ### Registers -/

/-- `frame_clear` (10_state.md R34): `buf` is left as it is. -/
def State.frameClear (s : State) : State :=
  { s with m := 0, cnt := 0, n := 0, L := 0, crcAcc := 0, crcRx := 0 }

/-- The end of a frame: `frame_clear; st <- SeekingSync`. -/
def State.endFrame (s : State) : State := { s.frameClear with st := .seekingSync }

/-- `frame_clear; st <- Halted` (43_frame_fsm.md R246, R247). -/
def State.halt (s : State) : State := { s.frameClear with st := .halted }

/-- The effect of `rst` (70_reset_and_hazards.md R310, R311): the registers and `st`; a pending event is lost; `buf` keeps
what it held; the byte source is not reset. -/
def State.resetBlock (s : State) : State := { s.endFrame with evt := none }

/-- Deliver a function's value on the result port (log 8). -/
def State.deliver (s : State) (v : Value) : State := { s with result := v }

/-! ### Events -/

/-- The output trace: what the sink has received, then the event being handed over (00_scope.md R17, R20). -/
def State.output (s : State) : List Event := s.trace ++ (s.evt.map Offer.event).toList

/-- `emit E`: E is offered on the event port with the raw length `n` beside it (43_frame_fsm.md R242, 30_encoding.md R115). An
event still on the port counts as taken, so that E is always appended to the output trace (00_scope.md R17; log 6). -/
def State.emit (s : State) (e : Event) : State := { s with trace := s.output, evt := some ⟨e, s.n⟩ }

/-- The sink takes the offered event (43_frame_fsm.md R242). -/
def State.handOver (s : State) : State := { s with trace := s.output, evt := none }

/-! ### Taking an exception -/

/-- The Dropped event of the frame in progress (30_encoding.md R113); `raw` is absent when RAW_ON_DROP is false (R12). -/
def State.droppedEvent (s : State) (reason : Reason) : Event :=
  .dropped reason (if s.cfg.rawOnDrop then some s.rawBytes else none)

/-- `raise Drop(reason)` (43_frame_fsm.md R262, 60_exceptions.md R292): emit Dropped with the raw bytes, `frame_clear`,
`st <- SeekingSync`. There is no return operation: the sequence itself ends in SeekingSync (R293). -/
def raiseDrop (reason : Reason) (s : State) : Result := .next (s.emit (s.droppedEvent reason)).endFrame

end Sys2Proof.Machine
end

