-- ==== Sys2Proof/Machine/Operands.lean ====
section
/-! DEFINITION. Every way the block reads an operand: the field addresser (20_memory.md R64), the extractors
(41_header_parser.md R150 to R154, 42_payload_decoder.md R180, R181) and the fields of a 25-byte header
(41_header_parser.md R156 to R168). -/

namespace Sys2Proof.Machine

/-- Buffer address of a header field (R64). -/
def headerAddr (o : Nat) : Nat := 3 + o

/-- Buffer address of a payload field (R64). -/
def payloadAddr (o : Nat) : Nat := 28 + o

/-- Buffer address of the checksum (R64, 30_encoding.md R95). -/
def checksumAddr (len : Half) : Nat := 28 + len.toNat

/-- `EXT.U8(a)` (R150). -/
def extU8 (s : State) (a : Nat) : Byte := s.memRead a 1

/-- `EXT.I8(a)` (R151): the same byte; the signed value is its `toInt`. -/
def extI8 (s : State) (a : Nat) : Byte := s.memRead a 1

/-- `EXT.U16(a)` (R152). -/
def extU16 (s : State) (a : Nat) : Half := s.memRead a 2

/-- `EXT.U32(a)` (R153). -/
def extU32 (s : State) (a : Nat) : Word := s.memRead a 4

/-- `EXT.I32(a)` (R154): the same bits; the signed value is their `toInt`. -/
def extI32 (s : State) (a : Nat) : Word := s.memRead a 4

/-- `EXT.F32(a)` (R180): the pattern, carried unchanged. -/
def extF32 (s : State) (a : Nat) : Word := s.memRead a 4

/-- `EXT.F64(a)` (R181): the pattern, carried unchanged. -/
def extF64 (s : State) (a : Nat) : Dword := s.memRead a 8

/-- The little-endian field of `w` bytes at offset `o` of a byte sequence (R155: `h[o]` stands at buffer address `3 + o`). -/
def fieldAt (h : List Byte) (o w : Nat) : BitVec (8 * w) := BitVec.ofNat (8 * w) (le ((h.drop o).take w))

/-- The 13 fields of 25 header bytes (30_encoding.md R93). -/
def headerOf (h : List Byte) : Header where
  f0 := fieldAt h 0 1
  f1 := fieldAt h 1 2
  f2 := fieldAt h 3 1
  f3 := fieldAt h 4 1
  f4 := fieldAt h 5 2
  f5 := fieldAt h 7 2
  f6 := fieldAt h 9 1
  f7 := fieldAt h 10 1
  f8 := fieldAt h 11 2
  f9 := fieldAt h 13 4
  f10 := fieldAt h 17 4
  f11 := fieldAt h 21 2
  f12 := fieldAt h 23 2

/-- The header of the frame in progress, `HDR.PARSE(buf[3..27])` (43_frame_fsm.md R256). -/
def State.header (s : State) : Header := headerOf (s.readBytes (headerAddr 0) 25)

/-- The alias `gps_week` (30_encoding.md R94, 00_scope.md R10). -/
def Header.gpsWeek (f : Config.WeekField) (h : Header) : Half :=
  match f with
  | .f5 => h.f5
  | .f8 => h.f8

/-- `ms_of_week` is F9 (41_header_parser.md R165). -/
def Header.msOfWeek (h : Header) : Word := h.f9

/-- `receiver_status` is F10 (41_header_parser.md R166). -/
def Header.receiverStatus (h : Header) : Word := h.f10

end Sys2Proof.Machine
end

