-- ==== Sys2Proof/Machine/Flags.lean ====
section
/-! DEFINITION. The block has no flag register; these are the comparisons that steer it, each consumed in the step that
computes it (10_state.md R30). -/

namespace Sys2Proof.Machine

/-- `HDR.VALIDATE` over unbounded integers: `consumed_len + 3 = header_length` (41_header_parser.md R170). -/
def validateHeaderLength (headerLength : Byte) (consumedLen : Nat) : Bool :=
  decide (consumedLen + 3 = headerLength.toNat)

/-- The length bound: `message_length > MAX_PAYLOAD_LEN` is malformed (41_header_parser.md R171, 00_scope.md R9). -/
def lengthAllowed (p : Config.Params) (messageLength : Half) : Bool :=
  decide (messageLength.toNat ≤ p.maxPayloadLen.toNat)

/-- The checksum comparison, all 32 bits (40_crc_engine.md R135, 43_frame_fsm.md R254). -/
def checksumEqual (received computed : Word) : Bool := received == computed

/-- The sync-byte comparisons (43_frame_fsm.md R244): the match count after a byte, or none when the byte completes the
preamble. -/
def syncMatch (m : BitVec 2) (b : Byte) : Option (BitVec 2) :=
  if m = 2 ∧ b = 0x12 then none
  else if m = 1 ∧ b = 0x44 then some 2
  else if b = 0xAA then some 1
  else some 0

end Sys2Proof.Machine
end

