-- ==== Sys2Proof/Machine/Extract.lean ====
section
/-! DEFINITION. The meanings of the extractor rows (41_header_parser.md R150 to R154, 42_payload_decoder.md R180, R181): each
reads `buf` at its operand, which may be any address (20_memory.md R67), and delivers the value; it writes nothing and raises
nothing. -/

namespace Sys2Proof.Machine

/-- `EXT.U8`. -/
def execExtU8 (a : Addr) (s : State) : Result := .next (s.deliver (.u8 (extU8 s a.toNat)))

/-- `EXT.I8`. -/
def execExtI8 (a : Addr) (s : State) : Result := .next (s.deliver (.i8 (extI8 s a.toNat)))

/-- `EXT.U16`. -/
def execExtU16 (a : Addr) (s : State) : Result := .next (s.deliver (.u16 (extU16 s a.toNat)))

/-- `EXT.U32`. -/
def execExtU32 (a : Addr) (s : State) : Result := .next (s.deliver (.u32 (extU32 s a.toNat)))

/-- `EXT.I32`. -/
def execExtI32 (a : Addr) (s : State) : Result := .next (s.deliver (.i32 (extI32 s a.toNat)))

/-- `EXT.F32`. -/
def execExtF32 (a : Addr) (s : State) : Result := .next (s.deliver (.f32 (extF32 s a.toNat)))

/-- `EXT.F64`. -/
def execExtF64 (a : Addr) (s : State) : Result := .next (s.deliver (.f64 (extF64 s a.toNat)))

end Sys2Proof.Machine
end

