-- ==== Sys2Proof/Machine/Crc.lean ====
section
/-! DEFINITION. The CRC Engine (40_crc_engine.md): its pure functions, its two register operations, and the meanings of the
CRC rows. -/

namespace Sys2Proof.Machine

/-- `POLY` (R130). -/
def poly : Word := 0xEDB88320

/-- `crc_bit` (R131). The body of the iteration is the spec's own general-knowledge passage (93_implementation_defined.md part 2). -/
def crcBit (v : Word) : Word := if v.getLsbD 0 then (v >>> 1) ^^^ poly else v >>> 1

/-- `crc_loop8` (R132). -/
def crcLoop8 (v : Word) : Word :=
  crcBit (crcBit (crcBit (crcBit (crcBit (crcBit (crcBit (crcBit v)))))))

/-- `crc32_step` (R133): only the low byte of the accumulator is combined with the data byte (90_conflicts.md C4). -/
def crc32Step (acc : Word) (b : Byte) : Word :=
  (acc >>> 8) ^^^ crcLoop8 ((acc.setWidth 8 ^^^ b).setWidth 32)

/-- `compute_crc32` (R134): from accumulator 0, first byte first, no final inversion. -/
def computeCrc32 (data : List Byte) : Word := data.foldl crc32Step 0

/-- `verify_checksum` (R135). -/
def verifyChecksum (data : List Byte) (received : Word) : Bool := checksumEqual received (computeCrc32 data)

/-- `CRC.CLR` (R136). -/
def State.crcClear (s : State) : State := { s with crcAcc := 0 }

/-- `CRC.ABSORB(b)` (R137). -/
def State.crcAbsorb (s : State) (b : Byte) : State := { s with crcAcc := crc32Step s.crcAcc b }

/-- `CRC.BIT`. -/
def execCrcBit (v : Word) (s : State) : Result := .next (s.deliver (.u32 (crcBit v)))

/-- `CRC.LOOP8`. -/
def execCrcLoop8 (v : Word) (s : State) : Result := .next (s.deliver (.u32 (crcLoop8 v)))

/-- `CRC.STEP`. -/
def execCrcStep (acc : Word) (b : Byte) (s : State) : Result := .next (s.deliver (.u32 (crc32Step acc b)))

/-- `CRC.COMPUTE`. -/
def execCrcCompute (data : List Byte) (s : State) : Result := .next (s.deliver (.u32 (computeCrc32 data)))

/-- `CRC.VERIFY`. -/
def execCrcVerify (data : List Byte) (received : Word) (s : State) : Result :=
  .next (s.deliver (.bit (verifyChecksum data received)))

/-- `CRC.CLR`. -/
def execCrcClr (s : State) : Result := .next s.crcClear

/-- `CRC.ABSORB`. -/
def execCrcAbsorb (b : Byte) (s : State) : Result := .next (s.crcAbsorb b)

end Sys2Proof.Machine
end

