-- ==== Sys2Proof/Machine/HeaderDecoder.lean ====
section
/-! DEFINITION. The Header Decoder's rows (41_header_parser.md). -/

namespace Sys2Proof.Machine

/-- `HDR.PARSE` (R155): fewer than 25 bytes is the error MalformedHeader; any 25 bytes parse. More than 25 are never
presented, and the fields are then free (log 14). -/
def parseHeader (h : List Byte) : Option Header :=
  if h.length < 25 then none
  else some (headerOf (if h.length = 25 then h else Config.overlongHeader h))

/-- `HDR.PARSE`. It is pure (R172): the error is its result, and the sequencer turns it into a drop (43_frame_fsm.md R250). -/
def execHdrParse (h : List Byte) (s : State) : Result :=
  .next (s.deliver (match parseHeader h with
    | some hdr => .header hdr
    | none => .error .malformedHeader))

/-- `HDR.VALIDATE` (R170). -/
def execHdrValidate (headerLength : Byte) (consumedLen : Nat) (s : State) : Result :=
  .next (s.deliver (.bit (validateHeaderLength headerLength consumedLen)))

end Sys2Proof.Machine
end

