-- ==== Sys2Proof/Machine/Payload.lean ====
section
/-! DEFINITION. The Payload Decoder (42_payload_decoder.md): derived values, the two record decoders, dispatch on the message
ID, and the meanings of the PLD rows. -/

namespace Sys2Proof.Machine

/-- Fix quality, comparing all 32 bits of each field (R207). Its two pairs are followed where 30_encoding.md R105 counts three
(log 23, DEDUCED). -/
def fixQuality (solStatus posType : Word) : FixQuality :=
  if solStatus = 0 ∧ posType = 50 then .gpsFix
  else if solStatus = 0 ∧ posType = 18 then .sbasFix
  else .noFix

/-- Covariance: the standard deviations' patterns copied, not squared (R208, U4). -/
def covariance (latStd lonStd hgtStd : Word) : Covariance :=
  { varLat := latStd, varLon := lonStd, varHgt := hgtStd, covType := .diagonalKnown }

/-- Satellite counts (visible, used) (R209). -/
def satCounts (svs solnSvs : Byte) : Byte × Byte := (svs, solnSvs)

/-- The constant `K`, the binary64 pattern of 0.514444444444 (R230). -/
def knotsToMps : Dword := 0x3FE07654320FDE28

/-- `vx`, products left to right (R232). -/
def vx (h a : Dword) : Dword := Config.fmul (Config.fmul h knotsToMps) (Config.fsin (Config.radians a))

/-- `vy`, products left to right (R233). -/
def vy (h a : Dword) : Dword := Config.fmul (Config.fmul h knotsToMps) (Config.fcos (Config.radians a))

/-- `decode_bestpos` (R185 to R210): the 21 fields of `buf[28..99]`, then the derived values. -/
def decodeBestpos (s : State) : PositionFix :=
  let solStatus := extI32 s (payloadAddr 0)
  let posType := extI32 s (payloadAddr 4)
  let latStd := extF32 s (payloadAddr 40)
  let lonStd := extF32 s (payloadAddr 44)
  let hgtStd := extF32 s (payloadAddr 48)
  let svs := extU8 s (payloadAddr 64)
  let solnSvs := extU8 s (payloadAddr 65)
  let cov := covariance latStd lonStd hgtStd
  let sats := satCounts svs solnSvs
  { solStatus := solStatus
    posType := posType
    lat := extF64 s (payloadAddr 8)
    lon := extF64 s (payloadAddr 16)
    hgt := extF64 s (payloadAddr 24)
    undulation := extF32 s (payloadAddr 32)
    datumId := extI32 s (payloadAddr 36)
    latStd := latStd
    lonStd := lonStd
    hgtStd := hgtStd
    baseId := extI32 s (payloadAddr 52)
    diffAge := extF32 s (payloadAddr 56)
    solAge := extF32 s (payloadAddr 60)
    svs := svs
    solnSvs := solnSvs
    rsv0 := extU8 s (payloadAddr 66)
    rsv1 := extU8 s (payloadAddr 67)
    rsv2 := extU8 s (payloadAddr 68)
    rsv3 := extU8 s (payloadAddr 69)
    rsv4 := extU8 s (payloadAddr 70)
    rsv5 := extU8 s (payloadAddr 71)
    fixQuality := fixQuality solStatus posType
    covType := cov.covType
    varLat := cov.varLat
    varLon := cov.varLon
    varHgt := cov.varHgt
    satsVisible := sats.1
    satsUsed := sats.2 }

/-- `decode_bestvel` (R211 to R220): the 8 fields of `buf[28..71]`, then `vx` and `vy`. `rsv` stands at payload offset 40, address 68
(20_memory.md R64), where R219 and 30_encoding.md R102 print 64 (log 16, DEDUCED). -/
def decodeBestvel (s : State) : VelocityFix :=
  let horSpeed := extF64 s (payloadAddr 16)
  let trackGnd := extF64 s (payloadAddr 24)
  { solStatus := extI32 s (payloadAddr 0)
    velType := extI32 s (payloadAddr 4)
    latency := extF32 s (payloadAddr 8)
    age := extF32 s (payloadAddr 12)
    horSpeed := horSpeed
    trackGnd := trackGnd
    vertSpeed := extF64 s (payloadAddr 32)
    rsv := extF32 s (payloadAddr 40)
    vx := vx horSpeed trackGnd
    vy := vy horSpeed trackGnd }

/-- Payload sizes (30_encoding.md R99). -/
def bestposSize : Nat := 72

/-- Payload sizes (30_encoding.md R99). -/
def bestvelSize : Nat := 44

/-- `decode_payload` (R183, R184, R236): the body goes on to `use`; a size that does not fit the decoder drops the frame. -/
def dispatchPayload (messageId len : Half) (s : State) (use : Body → Result) : Result :=
  if messageId = 42 then
    if len.toNat = bestposSize then use (.positionFix (decodeBestpos s))
    else raiseDrop .payloadSizeMismatch s
  else if messageId = 99 then
    if len.toNat = bestvelSize then use (.velocityFix (decodeBestvel s))
    else raiseDrop .payloadSizeMismatch s
  else use (.unrecognized messageId)

/-- `PLD.BESTPOS` (R185). -/
def execPldBestpos (s : State) : Result := .next (s.deliver (.body (.positionFix (decodeBestpos s))))

/-- `PLD.BESTVEL` (R211). -/
def execPldBestvel (s : State) : Result := .next (s.deliver (.body (.velocityFix (decodeBestvel s))))

/-- `PLD.UNREC` (R184): only the ID is carried. -/
def execPldUnrec (id : Half) (s : State) : Result := .next (s.deliver (.body (.unrecognized id)))

/-- `PLD.DISPATCH` (R183). -/
def execPldDispatch (messageId len : Half) (s : State) : Result :=
  dispatchPayload messageId len s fun b => .next (s.deliver (.body b))

/-- `PLD.FIXQ` (R207). -/
def execPldFixq (solStatus posType : Word) (s : State) : Result :=
  .next (s.deliver (.fixQuality (fixQuality solStatus posType)))

/-- `PLD.COV` (R208). -/
def execPldCov (latStd lonStd hgtStd : Word) (s : State) : Result :=
  .next (s.deliver (.covariance (covariance latStd lonStd hgtStd)))

/-- `PLD.SATS` (R209). -/
def execPldSats (svs solnSvs : Byte) (s : State) : Result :=
  .next (s.deliver (.satCounts (satCounts svs solnSvs).1 (satCounts svs solnSvs).2))

/-- `PLD.VX` (R232). -/
def execPldVx (h a : Dword) (s : State) : Result := .next (s.deliver (.f64 (vx h a)))

/-- `PLD.VY` (R233). -/
def execPldVy (h a : Dword) (s : State) : Result := .next (s.deliver (.f64 (vy h a)))

end Sys2Proof.Machine
end

