-- ==== Sys2Proof/Machine/Fsm.lean ====
section
/-! DEFINITION. The frame-sync state machine: the meanings of the FSM rows and of the preamble row (43_frame_fsm.md,
70_reset_and_hazards.md R310). An operation offered in a state that does not select it is not accepted and changes nothing
(43_frame_fsm.md R243; log 10). -/

namespace Sys2Proof.Machine

/-- The `cnt` condition that tells FSM.HDR from FSM.HDR.LAST (R248, R264): fewer than 24 header bytes consumed. -/
def State.moreHeader (s : State) : Bool := decide (s.cnt.toNat < 24)

/-- The `cnt` condition that tells FSM.CRC from FSM.CRC.LAST (R253, R264): fewer than 3 checksum bytes consumed. -/
def State.moreChecksum (s : State) : Bool := decide (s.cnt.toNat < 3)

/-- The preamble is complete (R244, first branch): the three sync bytes are stored and absorbed at once
(40_crc_engine.md R137), against 00_scope.md R16's 'never writes more than one byte per step' (log 22, DEDUCED). -/
def State.preambleComplete (s : State) : State :=
  { ((s.memWrite 0 0xAA).memWrite 1 0x44).memWrite 2 0x12 with
    n := 3, crcAcc := 0xB34323FF, m := 0, cnt := 0, st := .readingHeader }

/-- `SYNC`: the last three bytes consumed in SeekingSync are the preamble (R244, 30_encoding.md R91). -/
def execSync (s : State) : Result :=
  if s.st = .seekingSync then .next s.preambleComplete else .next s

/-- `FSM.SEEK` (R244). -/
def execFsmSeek (b : Byte) (s : State) : Result :=
  if s.st = .seekingSync then
    match syncMatch s.m b with
    | none => .next s.preambleComplete
    | some m => .next { s with m := m }
  else .next s

/-- `FSM.SEEK.EOS` (R246). -/
def execFsmSeekEos (s : State) : Result :=
  if s.st = .seekingSync then .next s.halt else .next s

/-- `FSM.STOP` (R247). -/
def execFsmStop (s : State) : Result :=
  if s.st = .seekingSync then .next s.halt else .next s

/-- `FSM.HDR` (R248): bytes 1 to 24 of the header. The address is at most 26, which always exists. -/
def execFsmHdr (b : Byte) (s : State) : Result :=
  if s.st = .readingHeader ∧ s.moreHeader then
    .next { (s.memWrite (headerAddr s.cnt.toNat) b).crcAbsorb b with n := s.n + 1, cnt := s.cnt + 1 }
  else .next s

/-- The 25th header byte is stored and absorbed (R249, first line). -/
def State.headerComplete (s : State) (b : Byte) : State :=
  { (s.memWrite 27 b).crcAbsorb b with n := 28 }

/-- `FSM.HDR.LAST` (R249): the header checks, then the payload, or the checksum when the payload is empty (R259).
The checks read the header in the step that stores its last byte, as R249 and 20_memory.md R74 say, against R69's 'a step in which
nothing is written' (log 24, DEDUCED). -/
def execFsmHdrLast (b : Byte) (s : State) : Result :=
  if s.st = .readingHeader ∧ ¬ s.moreHeader then
    let t := s.headerComplete b
    let hl := extU8 t (headerAddr 0)
    let ml := extU16 t (headerAddr 5)
    if validateHeaderLength hl 25 ∧ lengthAllowed t.cfg ml then
      .next { t with L := ml, cnt := 0, st := if ml = 0 then .readingChecksum else .readingPayload }
    else raiseDrop .malformedHeader t
  else .next s

/-- `FSM.HDR.EOS` (R250). -/
def execFsmHdrEos (s : State) : Result :=
  if s.st = .readingHeader then raiseDrop .malformedHeader s else .next s

/-- `FSM.PLD` (R251). -/
def execFsmPld (b : Byte) (s : State) : Result :=
  if s.st = .readingPayload then
    let t := { (s.store (payloadAddr s.cnt.toNat) b).crcAbsorb b with n := s.n + 1 }
    if s.cnt.toNat + 1 = s.L.toNat then .next { t with cnt := 0, st := .readingChecksum }
    else .next { t with cnt := s.cnt + 1 }
  else .next s

/-- `FSM.PLD.EOS` (R252). -/
def execFsmPldEos (s : State) : Result :=
  if s.st = .readingPayload then raiseDrop .truncatedPayload s else .next s

/-- `crc_rx[8k+7:8k] <- b` (10_state.md R27). -/
def setChecksumByte (rx : Word) (k : Nat) (b : Byte) : Word :=
  (rx &&& ~~~((0xFF : Word) <<< (8 * k))) ||| (b.setWidth 32 <<< (8 * k))

/-- `FSM.CRC` (R253): bytes 1 to 3 of the checksum, which are not absorbed. -/
def execFsmCrc (b : Byte) (s : State) : Result :=
  if s.st = .readingChecksum ∧ s.moreChecksum then
    .next { s.store (checksumAddr s.L + s.cnt.toNat) b with
      n := s.n + 1, crcRx := setChecksumByte s.crcRx s.cnt.toNat b, cnt := s.cnt + 1 }
  else .next s

/-- `FSM.CRC.LAST` (R254): the received checksum is complete and compared. -/
def execFsmCrcLast (b : Byte) (s : State) : Result :=
  if s.st = .readingChecksum ∧ ¬ s.moreChecksum then
    let rx := (b.setWidth 32 <<< 24) ^^^ s.crcRx
    let t := { s.store (checksumAddr s.L + 3) b with n := s.L.setWidth 17 + 32, crcRx := rx }
    if checksumEqual rx s.crcAcc then .next { t with cnt := 0, st := .dispatching }
    else raiseDrop .checksumMismatch t
  else .next s

/-- `FSM.CRC.EOS` (R255). -/
def execFsmCrcEos (s : State) : Result :=
  if s.st = .readingChecksum then raiseDrop .truncatedChecksum s else .next s

/-- `FSM.DISP` (R256). HDR.PARSE is evaluated here, as R256's pseudocode has it, against 41_header_parser.md R171's 'once per frame,
in the step that stores the 25th header byte' (log 25, DEDUCED). -/
def execFsmDisp (s : State) : Result :=
  if s.st = .dispatching then
    dispatchPayload s.header.f1 s.L s fun body => .next (s.emit (.frame s.header body)).endFrame
  else .next s

/-- `FSM.HALT` (R257): no step changes the state. -/
def execFsmHalt (s : State) : Result := .next s

/-- `FSM.RESET` (70_reset_and_hazards.md R310). -/
def execFsmReset (s : State) : Result := .next s.resetBlock

/-- `FSM.DROP` (R262): the drop sequence, in any state. -/
def execFsmDrop (reason : Reason) (s : State) : Result := raiseDrop reason s

end Sys2Proof.Machine
end

