-- ==== Sys2Proof/Machine/Dispatch.lean ====
section
/-! DEFINITION. One arm per operation of the table. -/

namespace Sys2Proof.Machine

def exec (i : Instr) (s : State) : Host.Outcome State Fault Refusal :=
  match i with
  -- WIRE-SYNC
  | .sync => Sys2Proof.Machine.execSync s
  -- WIRE-MSGID
  | .pldBestpos => Sys2Proof.Machine.execPldBestpos s
  | .pldBestvel => Sys2Proof.Machine.execPldBestvel s
  | .pldUnrec id => Sys2Proof.Machine.execPldUnrec id s
  -- FSM
  | .fsmSeek b => Sys2Proof.Machine.execFsmSeek b s
  | .fsmSeekEos => Sys2Proof.Machine.execFsmSeekEos s
  | .fsmStop => Sys2Proof.Machine.execFsmStop s
  | .fsmHdr b => Sys2Proof.Machine.execFsmHdr b s
  | .fsmHdrLast b => Sys2Proof.Machine.execFsmHdrLast b s
  | .fsmHdrEos => Sys2Proof.Machine.execFsmHdrEos s
  | .fsmPld b => Sys2Proof.Machine.execFsmPld b s
  | .fsmPldEos => Sys2Proof.Machine.execFsmPldEos s
  | .fsmCrc b => Sys2Proof.Machine.execFsmCrc b s
  | .fsmCrcLast b => Sys2Proof.Machine.execFsmCrcLast b s
  | .fsmCrcEos => Sys2Proof.Machine.execFsmCrcEos s
  | .fsmDisp => Sys2Proof.Machine.execFsmDisp s
  | .fsmHalt => Sys2Proof.Machine.execFsmHalt s
  | .fsmReset => Sys2Proof.Machine.execFsmReset s
  | .fsmDrop reason => Sys2Proof.Machine.execFsmDrop reason s
  -- FUNC
  | .crcBit v => Sys2Proof.Machine.execCrcBit v s
  | .crcLoop8 v => Sys2Proof.Machine.execCrcLoop8 v s
  | .crcStep acc b => Sys2Proof.Machine.execCrcStep acc b s
  | .crcCompute data => Sys2Proof.Machine.execCrcCompute data s
  | .crcVerify data received => Sys2Proof.Machine.execCrcVerify data received s
  | .crcClr => Sys2Proof.Machine.execCrcClr s
  | .crcAbsorb b => Sys2Proof.Machine.execCrcAbsorb b s
  | .extU8 a => Sys2Proof.Machine.execExtU8 a s
  | .extI8 a => Sys2Proof.Machine.execExtI8 a s
  | .extU16 a => Sys2Proof.Machine.execExtU16 a s
  | .extU32 a => Sys2Proof.Machine.execExtU32 a s
  | .extI32 a => Sys2Proof.Machine.execExtI32 a s
  | .extF32 a => Sys2Proof.Machine.execExtF32 a s
  | .extF64 a => Sys2Proof.Machine.execExtF64 a s
  | .hdrParse h => Sys2Proof.Machine.execHdrParse h s
  | .hdrValidate headerLength consumedLen => Sys2Proof.Machine.execHdrValidate headerLength consumedLen s
  | .pldDispatch messageId len => Sys2Proof.Machine.execPldDispatch messageId len s
  | .pldFixq solStatus posType => Sys2Proof.Machine.execPldFixq solStatus posType s
  | .pldCov latStd lonStd hgtStd => Sys2Proof.Machine.execPldCov latStd lonStd hgtStd s
  | .pldSats svs solnSvs => Sys2Proof.Machine.execPldSats svs solnSvs s
  | .pldVx h a => Sys2Proof.Machine.execPldVx h a s
  | .pldVy h a => Sys2Proof.Machine.execPldVy h a s

end Sys2Proof.Machine
end

