-- ==== Sys2Proof/Machine/Ports.lean ====
section
/-! DEFINITION. The signal-level outputs of 30_encoding.md section 8 (R114 to R116), as functions of the state, and the codes
they carry. Outputs the spec calls meaningless are absent (`none`) here (log 17), and so are those it gives no
value for: the frame kind and the header outputs of a Dropped event, and `raw_data` at or past `raw_len` (log 21). -/

namespace Sys2Proof.Machine

/-- Fix quality codes (30_encoding.md R110). -/
def FixQuality.code : FixQuality → BitVec 2
  | .noFix => 0
  | .gpsFix => 1
  | .sbasFix => 2

/-- Covariance type code (R111). -/
def CovType.code : CovType → BitVec 2
  | .diagonalKnown => 2

/-- Event kind (R109): 0 Frame, 1 Dropped. -/
def Event.kind : Event → BitVec 1
  | .frame _ _ => 0
  | .dropped _ _ => 1

/-- Frame kind (R109): 0 Unrecognized, 1 PositionFix, 2 VelocityFix. -/
def Body.kind : Body → BitVec 2
  | .unrecognized _ => 0
  | .positionFix _ => 1
  | .velocityFix _ => 2

/-- `halted` (10_state.md R30). -/
def State.haltedOut (s : State) : Bool := decide (s.st = .halted)

/-- `src_ready` (R114): a state that takes bytes, and no event waiting for the sink. A step that Stop or `rst` takes consumes no byte
all the same (43_frame_fsm.md R247; log 17). -/
def State.srcReady (s : State) : Bool :=
  s.evt.isNone && match s.st with
    | .seekingSync => true
    | .readingHeader => true
    | .readingPayload => true
    | .readingChecksum => true
    | .dispatching => false
    | .halted => false

/-- `evt_valid` (R115). -/
def State.evtValid (s : State) : Bool := s.evt.isSome

/-- `evt_kind` (R115). -/
def State.evtKind (s : State) : Option (BitVec 1) := s.evt.map fun o => o.event.kind

/-- `evt_reason` (R115, R108): 0 when the event is no drop. -/
def State.evtReason (s : State) : Option (BitVec 3) :=
  s.evt.map fun o => match o.event with
    | .frame _ _ => 0
    | .dropped reason _ => reason.code

/-- `evt_frame_kind` (R115). R115 gives it no value on a Dropped event: absent here (log 21, DESIGN CHOICE). -/
def State.evtFrameKind (s : State) : Option (BitVec 2) :=
  s.evt.bind fun o => match o.event with
    | .frame _ body => some body.kind
    | .dropped _ _ => none

/-- The header outputs `hdr_f0` to `hdr_f12` (R115). R115 gives them no value on a Dropped event, which carries no header (R113):
absent here (log 21, DESIGN CHOICE). -/
def State.evtHeader (s : State) : Option Header :=
  s.evt.bind fun o => match o.event with
    | .frame hdr _ => some hdr
    | .dropped _ _ => none

/-- The `gps_week` alias of the header outputs (R94, 00_scope.md R10), absent where they are (log 21). -/
def State.evtGpsWeek (s : State) : Option Half := s.evtHeader.map (Header.gpsWeek s.cfg.weekField)

/-- The position outputs, meaningful only when `evt_frame_kind` = 1 (R115). -/
def State.evtPosition (s : State) : Option PositionFix :=
  s.evt.bind fun o => match o.event with
    | .frame _ (.positionFix rec) => some rec
    | .frame _ (.velocityFix _) => none
    | .frame _ (.unrecognized _) => none
    | .dropped _ _ => none

/-- The velocity outputs, meaningful only when `evt_frame_kind` = 2 (R115). -/
def State.evtVelocity (s : State) : Option VelocityFix :=
  s.evt.bind fun o => match o.event with
    | .frame _ (.velocityFix rec) => some rec
    | .frame _ (.positionFix _) => none
    | .frame _ (.unrecognized _) => none
    | .dropped _ _ => none

/-- `raw_len` (R115): n as it was when the event was offered. -/
def State.rawLen (s : State) : Option (BitVec 17) := s.evt.map Offer.rawLen

/-- `raw_data` = `buf[raw_addr]` for `raw_addr < raw_len` (R115), which gives no value for another
`raw_addr`: absent here (log 21, DESIGN CHOICE). No byte is written while an event waits, so `buf` still
holds the frame's bytes (20_memory.md R80, 70_reset_and_hazards.md R316). -/
def State.rawData (s : State) (rawAddr : Addr) : Option Byte :=
  s.rawLen.bind fun len => if rawAddr.toNat < len.toNat then some (s.readByte rawAddr.toNat) else none

end Sys2Proof.Machine
end

