-- ==== Sys2Proof/Machine/Stream.lean ====
section
/-! DEFINITION. The stream notation of 30_encoding.md section 9 (R117, R119): the bytes of a header, of the two payloads and of
a frame, and what a list of items presents to the block. -/

namespace Sys2Proof.Machine

/-- The preamble in stream order (30_encoding.md R91). -/
def syncBytes : List Byte := [0xAA, 0x44, 0x12]

/-- A bit vector's bytes, least significant first. -/
def bytesOf (k : Nat) (v : BitVec (8 * k)) : List Byte := leBytes k v.toNat

/-- `HDR(f0, ..., f12)`: the 25 header bytes (R117, R93). -/
def headerBytes (h : Header) : List Byte :=
  bytesOf 1 h.f0 ++ bytesOf 2 h.f1 ++ bytesOf 1 h.f2 ++ bytesOf 1 h.f3 ++ bytesOf 2 h.f4 ++ bytesOf 2 h.f5 ++
  bytesOf 1 h.f6 ++ bytesOf 1 h.f7 ++ bytesOf 2 h.f8 ++ bytesOf 4 h.f9 ++ bytesOf 4 h.f10 ++ bytesOf 2 h.f11 ++
  bytesOf 2 h.f12

/-- `BESTPOS(p0, ..., p20)`: the 72 payload bytes of a record's raw fields (R117, R101). -/
def bestposBytes (r : PositionFix) : List Byte :=
  bytesOf 4 r.solStatus ++ bytesOf 4 r.posType ++ bytesOf 8 r.lat ++ bytesOf 8 r.lon ++ bytesOf 8 r.hgt ++
  bytesOf 4 r.undulation ++ bytesOf 4 r.datumId ++ bytesOf 4 r.latStd ++ bytesOf 4 r.lonStd ++ bytesOf 4 r.hgtStd ++
  bytesOf 4 r.baseId ++ bytesOf 4 r.diffAge ++ bytesOf 4 r.solAge ++
  [r.svs, r.solnSvs, r.rsv0, r.rsv1, r.rsv2, r.rsv3, r.rsv4, r.rsv5]

/-- `BESTVEL(v0, ..., v7)`: the 44 payload bytes of a record's raw fields (R117, R102). -/
def bestvelBytes (r : VelocityFix) : List Byte :=
  bytesOf 4 r.solStatus ++ bytesOf 4 r.velType ++ bytesOf 4 r.latency ++ bytesOf 4 r.age ++ bytesOf 8 r.horSpeed ++
  bytesOf 8 r.trackGnd ++ bytesOf 8 r.vertSpeed ++ bytesOf 4 r.rsv

/-- The little-endian checksum of a byte sequence, the item `CRC` (R117). -/
def crcBytes (d : List Byte) : List Byte := bytesOf 4 (computeCrc32 d)

/-- A frame with a given header and payload and a good checksum (R90). -/
def frameWith (h : Header) (payload : List Byte) : List Byte :=
  let covered := syncBytes ++ headerBytes h ++ payload
  covered ++ crcBytes covered

/-- The header of `FRAME(id, payload)`: every unnamed field zero (R119). -/
def plainHeader (id : Half) (len : Nat) : Header where
  f0 := 28
  f1 := id
  f2 := 0
  f3 := 0
  f4 := BitVec.ofNat 16 len
  f5 := 0
  f6 := 0
  f7 := 0
  f8 := 0
  f9 := 0
  f10 := 0
  f11 := 0
  f12 := 0

/-- `FRAME(id, payload)` (R119). -/
def plainFrame (id : Half) (payload : List Byte) : List Byte := frameWith (plainHeader id payload.length) payload

/-- The items of the stream notation (R117). -/
inductive StreamItem where
  | byte (b : Byte)
  | sync
  | hdr (h : Header)
  | bestpos (r : PositionFix)
  | bestvel (r : VelocityFix)
  | crc
  | u32le (x : Word)
  | eos
  | stop
deriving DecidableEq, Repr

/-- What an item presents to the block; `since` is every byte from the most recent `SYNC` item up to it. -/
def StreamItem.feed (since : List Byte) : StreamItem → List Feed
  | .eos => [.eos]
  | .stop => [.stop true]
  | .byte b => [.byte b]
  | .sync => syncBytes.map .byte
  | .hdr h => (headerBytes h).map .byte
  | .bestpos r => (bestposBytes r).map .byte
  | .bestvel r => (bestvelBytes r).map .byte
  | .crc => (crcBytes since).map .byte
  | .u32le x => (bytesOf 4 x).map .byte

/-- The bytes counted from the most recent `SYNC` item, after an item. -/
def StreamItem.since (before : List Byte) : StreamItem → List Byte
  | .sync => syncBytes
  | .byte b => before ++ [b]
  | .hdr h => before ++ headerBytes h
  | .bestpos r => before ++ bestposBytes r
  | .bestvel r => before ++ bestvelBytes r
  | .crc => before ++ crcBytes before
  | .u32le x => before ++ bytesOf 4 x
  | .eos => before
  | .stop => before

/-- What a list of items presents, in order. -/
def streamFeed : List Byte → List StreamItem → List Feed
  | _, [] => []
  | before, item :: rest => item.feed before ++ streamFeed (item.since before) rest

/-- The reset state in an environment that presents a stream (95_test_vectors.md section 3.2). -/
def State.onStream (items : List StreamItem) : State := { State.reset with feed := streamFeed [] items }

end Sys2Proof.Machine
end

