-- ==== Sys2Proof/Machine/Sequencer.lean ====
section
/-! DEFINITION. What the environment presents to a step, and which operation the sequencer selects for it (43_frame_fsm.md
R243, R264; 60_exceptions.md R291). -/

namespace Sys2Proof.Machine

/-- A step first samples the levels: at most one change of an input level that stands at the head of the feed takes effect
(log 4). -/
def State.sample (s : State) : State :=
  match s.feed with
  | .eos :: r => { s with feed := r, eos := true }
  | .stop level :: r => { s with feed := r, stopReq := level }
  | .rst level :: r => { s with feed := r, rst := level }
  | .sink ready :: r => { s with feed := r, evtReady := ready }
  | .byte _ :: _ => s
  | [] => s

/-- `src_valid` and `src_data` (30_encoding.md R114): the byte the source has ready. -/
def State.nextByte (s : State) : Option Byte :=
  match s.feed with
  | .byte b :: _ => some b
  | .eos :: _ => none
  | .stop _ :: _ => none
  | .rst _ :: _ => none
  | .sink _ :: _ => none
  | [] => none

/-- The operations that consume a byte of the source. -/
def Instr.takesByte : Instr → Bool
  | .fsmSeek _ => true
  | .fsmHdr _ => true
  | .fsmHdrLast _ => true
  | .fsmPld _ => true
  | .fsmCrc _ => true
  | .fsmCrcLast _ => true
  | .sync => false
  | .pldBestpos => false
  | .pldBestvel => false
  | .pldUnrec _ => false
  | .fsmSeekEos => false
  | .fsmStop => false
  | .fsmHdrEos => false
  | .fsmPldEos => false
  | .fsmCrcEos => false
  | .fsmDisp => false
  | .fsmHalt => false
  | .fsmReset => false
  | .fsmDrop _ => false
  | .crcBit _ => false
  | .crcLoop8 _ => false
  | .crcStep _ _ => false
  | .crcCompute _ => false
  | .crcVerify _ _ => false
  | .crcClr => false
  | .crcAbsorb _ => false
  | .extU8 _ => false
  | .extI8 _ => false
  | .extU16 _ => false
  | .extU32 _ => false
  | .extI32 _ => false
  | .extF32 _ => false
  | .extF64 _ => false
  | .hdrParse _ => false
  | .hdrValidate _ _ => false
  | .pldDispatch _ _ => false
  | .pldFixq _ _ => false
  | .pldCov _ _ _ => false
  | .pldSats _ _ => false
  | .pldVx _ _ => false
  | .pldVy _ _ => false

/-- Consuming a byte: the read cursor moves on and the byte cannot be read again (20_memory.md R69). -/
def State.consume (i : Instr) (s : State) : State :=
  if Instr.takesByte i then { s with feed := s.feed.tail, cursor := s.cursor + 1 } else s

/-- The operation of a state that takes `EOS` or `Byte`: end of stream first (30_encoding.md R114). -/
def State.eosOrByte (s : State) (atEos : Instr) (onByte : Byte → Instr) : Option Instr :=
  if s.eos then some atEos else s.nextByte.map onByte

/-- The operation the sequencer selects from its state, the input and the `cnt` condition, or none where the input the state
waits for is not there. `rst` acts in any state (70_reset_and_hazards.md R310); in SeekingSync Stop comes before EOS before a
byte, elsewhere Stop is not looked at (R243, R247, R291). -/
def State.select (s : State) : Option Instr :=
  if s.rst then some .fsmReset
  else match s.st with
    | .seekingSync => if s.stopReq then some .fsmStop else s.eosOrByte .fsmSeekEos .fsmSeek
    | .readingHeader => s.eosOrByte .fsmHdrEos fun b => if s.moreHeader then .fsmHdr b else .fsmHdrLast b
    | .readingPayload => s.eosOrByte .fsmPldEos .fsmPld
    | .readingChecksum => s.eosOrByte .fsmCrcEos fun b => if s.moreChecksum then .fsmCrc b else .fsmCrcLast b
    | .dispatching => some .fsmDisp
    | .halted => some .fsmHalt

/-- Running the sequencer's selection: the operation on the state that has consumed its input; with no input there is no
step and nothing changes (30_encoding.md R114, 60_exceptions.md R301). -/
def State.runSelected (s : State) : Result :=
  match s.select with
  | some i => exec i (s.consume i)
  | none => .next s

/-- One step of the block in a sampled environment: `rst` first; then an event that waits for the sink, which holds up
everything else (43_frame_fsm.md R242); then the sequencer. -/
def State.advance (s : State) : Result :=
  if s.rst || s.evt.isNone then s.runSelected
  else if s.evtReady then .next s.handOver
  else .next s

/-- Running the word on the operation port: it is taken off the port and the operation it decodes to is run (log 7). -/
def State.runOp (s : State) (w : OpWord) : Result :=
  match decode w.format w.bytes with
  | .ok i _ => exec i { s with op := none }
  | .reject why => .refused (.noSuchOperation why)

/-- A complete frame with message ID 0 and no payload, ready to be dispatched. -/
def State.frameReady (s : State) : State :=
  let covered := syncBytes ++ headerBytes (plainHeader 0 0)
  { s with
    st := .dispatching, n := 32, crcAcc := computeCrc32 covered, crcRx := computeCrc32 covered
    buf := (List.range 32).zip (covered ++ crcBytes covered) }

/-- Put the sequencer where an FSM row is selected: its state code, and the `cnt` condition of a row that has one
(30_encoding.md R120; log 7). FSM.DISP is selected when a frame is complete, so it gets one. The rows that are selected in any
state, and the other formats, need nothing. -/
def State.selectRow (i : Instr) (s : State) : State :=
  match i with
  | .fsmSeek _ => { s with st := .seekingSync }
  | .fsmSeekEos => { s with st := .seekingSync }
  | .fsmStop => { s with st := .seekingSync }
  | .sync => { s with st := .seekingSync }
  | .fsmHdr _ => { s with st := .readingHeader, cnt := 0 }
  | .fsmHdrLast _ => { s with st := .readingHeader, cnt := 24 }
  | .fsmHdrEos => { s with st := .readingHeader }
  | .fsmPld _ => { s with st := .readingPayload }
  | .fsmPldEos => { s with st := .readingPayload }
  | .fsmCrc _ => { s with st := .readingChecksum, cnt := 0 }
  | .fsmCrcLast _ => { s with st := .readingChecksum, cnt := 3 }
  | .fsmCrcEos => { s with st := .readingChecksum }
  | .fsmDisp => s.frameReady
  | .fsmHalt => { s with st := .halted }
  | .pldBestpos => s
  | .pldBestvel => s
  | .pldUnrec _ => s
  | .fsmReset => s
  | .fsmDrop _ => s
  | .crcBit _ => s
  | .crcLoop8 _ => s
  | .crcStep _ _ => s
  | .crcCompute _ => s
  | .crcVerify _ _ => s
  | .crcClr => s
  | .crcAbsorb _ => s
  | .extU8 _ => s
  | .extI8 _ => s
  | .extU16 _ => s
  | .extU32 _ => s
  | .extI32 _ => s
  | .extF32 _ => s
  | .extF64 _ => s
  | .hdrParse _ => s
  | .hdrValidate _ _ => s
  | .pldDispatch _ _ => s
  | .pldFixq _ _ => s
  | .pldCov _ _ _ => s
  | .pldSats _ _ => s
  | .pldVx _ _ => s
  | .pldVy _ _ => s

/-- Put a table word on the operation port, with the sequencer where the row it decodes to is selected. -/
def State.offerWord (s : State) (nbits w : Nat) : State :=
  { (match decodeTableWord nbits w with
      | some i => s.selectRow i
      | none => s) with
    op := some ⟨formatOfWidth nbits, tableBytes nbits w⟩ }

end Sys2Proof.Machine
end

