-- ==== Sys2Proof/Machine/Step.lean ====
section
/-! DEFINITION. The step function. -/

namespace Sys2Proof.Machine

/-- One step: a word on the operation port is run by itself (log 7); otherwise the block samples its inputs and advances
(43_frame_fsm.md R264). -/
def step (s : State) : Host.Outcome State Fault Refusal :=
  match s.op with
  | some w => s.runOp w
  | none => s.sample.advance

/-- `s` with a table word where `step` takes its next operation. -/
def State.withFetchWord (s : State) (nbits w : Nat) : State := s.offerWord nbits w

end Sys2Proof.Machine
end

