-- ==== Sys2Proof/Safety.lean ====
section
/-! DEFINITION. The terms claims are made in: which bytes of the buffer the frame has written, the block's invariant
(10_state.md R36), and a step that does not stop. -/

namespace Sys2Proof.Machine

/-- Every byte of `buf[0..k-1]` has been written (10_state.md R40). -/
def State.written (s : State) (k : Nat) : Prop := ∀ a, a < k → (s.buf.find a).isSome

/-- The frame registers hold their reset values (10_state.md R34, R36). -/
def State.framesClear (s : State) : Prop :=
  s.cnt = 0 ∧ s.n = 0 ∧ s.L = 0 ∧ s.crcAcc = 0 ∧ s.crcRx = 0

/-- The block's state is the one between frames, which is its reset state but for `buf` (43_frame_fsm.md R258). -/
def State.betweenFrames (s : State) : Prop := s.st = .seekingSync ∧ s.m = 0 ∧ s.framesClear

/-- The first `k` bytes of the frame are stored and absorbed: `crc_acc = compute_crc32(buf[0..k-1])`. -/
def State.absorbed (s : State) (k : Nat) : Prop := s.written k ∧ s.crcAcc = computeCrc32 (s.readBytes 0 k)

/-- The frame's checked header is in `buf`: `L = MemRead(8, 2)` within the bound, `MemRead(3, 1) = 28` (R36). -/
def State.headerChecked (s : State) : Prop :=
  s.L.toNat ≤ s.cfg.maxPayloadLen.toNat ∧ s.L = s.memRead 8 2 ∧ s.memRead 3 1 = 28

/-- What R36 says of each sequencer state, with R22's range of `m` in SeekingSync. -/
def State.sectionInv (s : State) : Prop :=
  match s.st with
  | .seekingSync => s.m.toNat ≤ 2 ∧ s.framesClear
  | .readingHeader =>
    s.m = 0 ∧ s.cnt.toNat ≤ 24 ∧ s.n.toNat = 3 + s.cnt.toNat ∧ s.L = 0 ∧ s.crcRx = 0 ∧
      s.readBytes 0 3 = [0xAA, 0x44, 0x12] ∧ s.absorbed s.n.toNat
  | .readingPayload =>
    s.m = 0 ∧ s.n.toNat = 28 + s.cnt.toNat ∧ 1 ≤ s.L.toNat ∧ s.cnt.toNat < s.L.toNat ∧ s.headerChecked ∧
      s.crcRx = 0 ∧ s.absorbed s.n.toNat
  | .readingChecksum =>
    s.m = 0 ∧ s.n.toNat = 28 + s.L.toNat + s.cnt.toNat ∧ s.cnt.toNat ≤ 3 ∧ s.headerChecked ∧
      s.absorbed (28 + s.L.toNat) ∧ s.written s.n.toNat ∧
      s.crcRx = BitVec.ofNat 32 (le (s.readBytes (28 + s.L.toNat) s.cnt.toNat))
  | .dispatching =>
    s.m = 0 ∧ s.cnt = 0 ∧ s.n.toNat = 32 + s.L.toNat ∧ s.headerChecked ∧ s.absorbed (28 + s.L.toNat) ∧
      s.written s.n.toNat ∧ s.crcRx = s.crcAcc
  | .halted => s.m = 0 ∧ s.framesClear

/-- The block runs by itself (nothing on the operation port), its buffer is in canonical form, and R36 holds. -/
def State.blockInv (s : State) : Prop := s.op = none ∧ Memory.wf s.buf ∧ s.sectionInv

/-- A step that stops neither with a fault nor with a refusal. -/
def State.stepsOn (s : State) : Prop := ∃ t, step s = .next t

/-- The state after `raise Drop(reason)` (43_frame_fsm.md R262), written out. -/
def State.afterDrop (reason : Reason) (s : State) : State :=
  { s with
    trace := s.output
    evt := some ⟨.dropped reason (if s.cfg.rawOnDrop then some (s.readBytes 0 s.n.toNat) else none), s.n⟩
    m := 0, cnt := 0, n := 0, L := 0, crcAcc := 0, crcRx := 0, st := .seekingSync }

/-- The state after a Frame event (43_frame_fsm.md R256), written out. -/
def State.afterFrame (hdr : Header) (body : Body) (s : State) : State :=
  { s with
    trace := s.output
    evt := some ⟨.frame hdr body, s.n⟩
    m := 0, cnt := 0, n := 0, L := 0, crcAcc := 0, crcRx := 0, st := .seekingSync }

/-- Nothing on the operation port or the event port, and no input level raised: the block sees bytes only. -/
def State.quiet (s : State) : Prop :=
  s.op = none ∧ s.evt = none ∧ s.rst = false ∧ s.stopReq = false ∧ s.eos = false

/-- Operations run one after another, as long as each gives a next state. -/
def runOps : List Instr → State → Result
  | [], s => .next s
  | i :: is, s =>
    match exec i s with
    | .next t => runOps is t
    | .fault r => .fault r
    | .refused r => .refused r

end Sys2Proof.Machine
end

