-- ==== Sys2Proof/Certificates/Slice0/Obligations.lean ====
section
/-! DEFINITION. Statements about the block. Each docstring names the rule or section it formalises. -/

open Sys2Proof Sys2Proof.Machine

/-! ### Decoding -/

/-- 30_encoding.md R90, R98, R107, R120, with the model's own bits of log 9: decoding an encoded well-formed operation gives
it back, with whatever bytes follow. -/
def Obligations.DecodeEncodeRoundTrip : Prop :=
  ∀ (i : Instr) (rest : List Byte), i.wellFormed = true → decode i.format (encode i ++ rest) = .ok i rest

/-- Decoding yields only well-formed operations of the format decoded (log 9). -/
def Obligations.DecodedOperationsAreWellFormed : Prop :=
  ∀ (f : Format) (bs rest : List Byte) (i : Instr), decode f bs = .ok i rest → i.wellFormed = true ∧ i.format = f

/-- 30_encoding.md R91, R98: a word of the two wire formats has one meaning, and that meaning has one word. -/
def Obligations.WireWordsAreCanonical : Prop :=
  ∀ (f : Format) (bs rest : List Byte) (i : Instr), f = .wireSync ∨ f = .wireMsgid →
    decode f bs = .ok i rest → bs = encode i ++ rest

/-- 30_encoding.md R98: the message-ID map, all 16 bits compared. -/
def Obligations.MessageIdSelectsDecoder : Prop :=
  ∀ (lo hi : Byte) (rest : List Byte),
    decode .wireMsgid (lo :: hi :: rest) =
      (if lo.toNat + 256 * hi.toNat = 42 then .ok .pldBestpos rest
       else if lo.toNat + 256 * hi.toNat = 99 then .ok .pldBestvel rest
       else .ok (.pldUnrec (BitVec.ofNat 16 (lo.toNat + 256 * hi.toNat))) rest)

/-- Words written out by hand. The preamble, the message IDs and the low three bits of an FSM word are the spec's bits
(30_encoding.md R91, R98, R107, R120); the rest of an FSM word is the model's choice (log 9, DESIGN CHOICE): the input kind in
bits 5 to 3, here 0, bits 6 and 7, here 0, and the operand byte behind. -/
def Obligations.SpecWordsDecode : Prop :=
  decode .wireSync [0xAA, 0x44, 0x12] = .ok .sync [] ∧
  decode .wireMsgid [0x2A, 0x00] = .ok .pldBestpos [] ∧
  decode .wireMsgid [0x63, 0x00] = .ok .pldBestvel [] ∧
  decode .wireMsgid [0x2A, 0x01] = .ok (.pldUnrec 298) [] ∧
  decode .fsm [0x00, 0x5A] = .ok (.fsmSeek 0x5A) [] ∧
  decode .fsm [0x01, 0x1C] = .ok (.fsmHdr 0x1C) [] ∧
  decode .fsm [0x02, 0x33] = .ok (.fsmPld 0x33) [] ∧
  decode .fsm [0x03, 0xE2] = .ok (.fsmCrc 0xE2) [] ∧
  decode .fsm [0x04] = .ok .fsmDisp [] ∧
  decode .fsm [0x05] = .ok .fsmHalt [] ∧
  decode .fsm [0x06, 0x00] = .reject .unusedStateCode ∧
  decode .fsm [0x07, 0x00] = .reject .unusedStateCode

/-! ### The step -/

/-- The word on the operation port is taken off it and the operation it decodes to is run (log 7). -/
def Obligations.StepRunsOfferedOperation : Prop :=
  ∀ (s : State) (w : OpWord) (i : Instr) (rest : List Byte), s.op = some w → decode w.format w.bytes = .ok i rest →
    step s = exec i { s with op := none }

/-- 43_frame_fsm.md R243, R264, section 7: with nothing on the operation port and no event waiting, a step runs the
operation the state and its input select, on the state that has consumed the input; `rst` acts even while an event
waits. -/
def Obligations.StepRunsSelectedOperation : Prop :=
  ∀ (s : State) (i : Instr), s.op = none → s.sample.rst = true ∨ s.evt = none → s.sample.select = some i →
    step s = exec i (if Instr.takesByte i then { s.sample with feed := s.sample.feed.tail, cursor := s.cursor + 1 }
      else s.sample)

/-- 43_frame_fsm.md R243 and R264 as a table: which operation each state selects for each input, and which inputs it does
not accept. `Stop` is looked at in SeekingSync only. With `rst` high every state, Halted too, selects FSM.RESET and nothing else
(70_reset_and_hazards.md R310). -/
def Obligations.SequencerSelectionTable : Prop :=
  ∀ s : State, (s.rst = true → s.select = some .fsmReset) ∧ (s.rst = false →
    (s.st = .seekingSync → s.stopReq = true → s.select = some .fsmStop) ∧
    (s.st = .seekingSync → s.stopReq = false → s.eos = true → s.select = some .fsmSeekEos) ∧
    (∀ b r, s.st = .seekingSync → s.stopReq = false → s.eos = false → s.feed = .byte b :: r →
      s.select = some (.fsmSeek b)) ∧
    (s.st = .readingHeader → s.eos = true → s.select = some .fsmHdrEos) ∧
    (∀ b r, s.st = .readingHeader → s.eos = false → s.feed = .byte b :: r →
      s.select = some (if s.cnt.toNat < 24 then .fsmHdr b else .fsmHdrLast b)) ∧
    (s.st = .readingPayload → s.eos = true → s.select = some .fsmPldEos) ∧
    (∀ b r, s.st = .readingPayload → s.eos = false → s.feed = .byte b :: r → s.select = some (.fsmPld b)) ∧
    (s.st = .readingChecksum → s.eos = true → s.select = some .fsmCrcEos) ∧
    (∀ b r, s.st = .readingChecksum → s.eos = false → s.feed = .byte b :: r →
      s.select = some (if s.cnt.toNat < 3 then .fsmCrc b else .fsmCrcLast b)) ∧
    (s.st = .dispatching → s.select = some .fsmDisp) ∧
    (s.st = .halted → s.select = some .fsmHalt) ∧
    (∀ level, s.st ≠ .seekingSync → { s with stopReq := level }.select = s.select))

/-- 43_frame_fsm.md R242, D23: while an event waits for the sink the block consumes nothing and changes no register; a
ready sink takes the event into the trace. -/
def Obligations.WaitingEventHoldsUpTheBlock : Prop :=
  ∀ (s : State) (o : Offer), s.op = none → s.evt = some o → s.sample.rst = false →
    step s = .next (if s.sample.evtReady then { s.sample with trace := s.trace ++ [o.event], evt := none } else s.sample)

/-- 30_encoding.md R114, 60_exceptions.md R301: with no byte ready and no end of stream a reading state makes no step; nothing
but the sampled levels changes. What sampling does is the model's form of the environment (log 4, DESIGN CHOICE): it takes one
level change off the head of the feed, gives that level its value and touches nothing else; with a byte at the head, or with
nothing presented, no level changes. -/
def Obligations.WaitingForAByteChangesNothing : Prop :=
  ∀ s : State,
    s.sample = { s with feed := s.sample.feed, eos := s.sample.eos, stopReq := s.sample.stopReq, rst := s.sample.rst
                        evtReady := s.sample.evtReady } ∧
    (∀ r, s.feed = .eos :: r → s.sample = { s with feed := r, eos := true }) ∧
    (∀ level r, s.feed = .stop level :: r → s.sample = { s with feed := r, stopReq := level }) ∧
    (∀ level r, s.feed = .rst level :: r → s.sample = { s with feed := r, rst := level }) ∧
    (∀ ready r, s.feed = .sink ready :: r → s.sample = { s with feed := r, evtReady := ready }) ∧
    (∀ b r, s.feed = .byte b :: r → s.sample = s) ∧ (s.feed = [] → s.sample = s) ∧
    (s.op = none → s.evt = none → s.sample.rst = false → s.sample.eos = false → (∀ b r, s.sample.feed ≠ .byte b :: r) →
    (s.st = .seekingSync ∧ s.sample.stopReq = false ∨ s.st = .readingHeader ∨ s.st = .readingPayload ∨
      s.st = .readingChecksum) →
    step s = .next s.sample)

/-- 43_frame_fsm.md R257: in Halted no input is accepted: a step changes no more than the sampled levels, and a byte stays with
the source, until `rst`. -/
def Obligations.HaltedAcceptsNothing : Prop :=
  ∀ s : State, s.op = none → s.evt = none → s.sample.rst = false → s.st = .halted →
    step s = .next s.sample ∧ s.sample.cursor = s.cursor ∧ (∀ b r, s.feed = .byte b :: r → s.sample = s)

/-- 20_memory.md R69, 10_state.md R29: the read cursor moves forward by one byte, the head of the feed, or stays. -/
def Obligations.CursorNeverMovesBack : Prop :=
  ∀ s t : State, s.op = none → step s = .next t →
    (t.cursor = s.cursor ∧ t.feed = s.sample.feed) ∨
    (t.cursor = s.cursor + 1 ∧ ∃ b, s.sample.feed = .byte b :: t.feed)

/-! ### Whole-machine rules -/

/-- No operation changes the environment or the parameters (70_reset_and_hazards.md R311; 00_scope.md R9 to R12). -/
def Obligations.OperationsLeaveEnvironment : Prop :=
  ∀ (i : Instr) (s t : State), exec i s = .next t →
    t.feed = s.feed ∧ t.cursor = s.cursor ∧ t.eos = s.eos ∧ t.stopReq = s.stopReq ∧ t.rst = s.rst ∧
    t.evtReady = s.evtReady ∧ t.cfg = s.cfg ∧ t.op = s.op

/-- 43_frame_fsm.md R242, R262: an operation other than reset adds at most one event to the output trace and changes none
of the events already there. -/
def Obligations.AtMostOneEventPerOperation : Prop :=
  ∀ (i : Instr) (s t : State), i ≠ .fsmReset → exec i s = .next t →
    t.output = s.output ∨ ∃ e, t.output = s.output ++ [e]

/-- 43_frame_fsm.md R258, 10_state.md R34: whatever operation emits an event leaves the block in its state between frames. -/
def Obligations.EveryEventEndsTheFrame : Prop :=
  ∀ (i : Instr) (s t : State), s.evt = none → exec i s = .next t → t.evt ≠ none → t.betweenFrames

/-- 60_exceptions.md R281 to R285, section 1 and section 4: each drop reason is raised in its own sequencer state only, and a
Frame event comes from FSM.DISP in Dispatching only. FSM.DROP, the drop sequence itself, and PLD.DISPATCH run by itself
(log 8) drop in whatever state they are run. -/
def Obligations.EventsComeFromTheirStates : Prop :=
  ∀ (i : Instr) (s t : State) (o : Offer), s.evt = none → exec i s = .next t → t.evt = some o →
    match o.event with
    | .frame _ _ => s.st = .dispatching ∧ i = .fsmDisp
    | .dropped reason _ =>
      i = .fsmDrop reason ∨ (reason = .payloadSizeMismatch ∧ ∃ id l, i = .pldDispatch id l) ∨
      s.st = (match reason with
        | .malformedHeader => .readingHeader
        | .truncatedPayload => .readingPayload
        | .checksumMismatch => .readingChecksum
        | .truncatedChecksum => .readingChecksum
        | .payloadSizeMismatch => .dispatching)

/-- 10_state.md section 8 (R36), with R22 and R40: every step of the block keeps the invariant. -/
def Obligations.EveryStepKeepsInvariant : Prop :=
  ∀ s t : State, s.blockInv → step s = .next t → t.blockInv

/-- 10_state.md R35, section 8: the invariant holds at reset. -/
def Obligations.InvariantHoldsAtReset : Prop :=
  State.reset.blockInv

/-- 60_exceptions.md section 1 (R280) and section 5, 20_memory.md section 6 (R72): from every state a step gives a next state. The
one exception is the model's own: a word on the operation port that decodes to nothing (log 9). -/
def Obligations.BlockNeverStops : Prop :=
  ∀ s : State, (∀ w, s.op = some w → ∃ i rest, decode w.format w.bytes = .ok i rest) → s.stepsOn

/-! ### Reset and halting -/

/-- 70_reset_and_hazards.md R310 and 10_state.md R35: in any state `rst` gives every register its reset value, drops a pending
event and leaves `buf`, the byte source and the ports; the machine's own reset state has the same values, no byte of `buf`
with a value, and `halted` = 0. -/
def Obligations.ResetState : Prop :=
  (∀ s : State, exec .fsmReset s =
    .next { s with st := .seekingSync, m := 0, cnt := 0, n := 0, L := 0, crcAcc := 0, crcRx := 0, evt := none }) ∧
  State.reset.betweenFrames ∧ State.reset.evt = none ∧ (∀ a, State.reset.buf.find a = none) ∧
  State.reset.haltedOut = false

/-- 43_frame_fsm.md section 2 (R246, R247): end of stream and Stop between frames clear the frame registers and halt, with no
event and no byte consumed, whatever the match count. FSM.HALT changes nothing: R257 says so in Halted, and in the other
states it is the model's reading of 'not accepted' (log 10, DEDUCED). -/
def Obligations.HaltingRows : Prop :=
  ∀ s : State,
    (s.st = .seekingSync →
      exec .fsmSeekEos s = .next { s with st := .halted, m := 0, cnt := 0, n := 0, L := 0, crcAcc := 0, crcRx := 0 } ∧
      exec .fsmStop s = .next { s with st := .halted, m := 0, cnt := 0, n := 0, L := 0, crcAcc := 0, crcRx := 0 }) ∧
    exec .fsmHalt s = .next s

/-- 43_frame_fsm.md R243, with log 10: an FSM operation or the preamble row in a state that does not select it is not
accepted and changes nothing. -/
def Obligations.UnselectedOperationsChangeNothing : Prop :=
  ∀ (s : State) (b : Byte),
    (s.st ≠ .seekingSync → exec .sync s = .next s ∧ exec (.fsmSeek b) s = .next s ∧ exec .fsmSeekEos s = .next s ∧
      exec .fsmStop s = .next s) ∧
    (s.st ≠ .readingHeader → exec (.fsmHdr b) s = .next s ∧ exec (.fsmHdrLast b) s = .next s ∧
      exec .fsmHdrEos s = .next s) ∧
    (s.st ≠ .readingPayload → exec (.fsmPld b) s = .next s ∧ exec .fsmPldEos s = .next s) ∧
    (s.st ≠ .readingChecksum → exec (.fsmCrc b) s = .next s ∧ exec (.fsmCrcLast b) s = .next s ∧
      exec .fsmCrcEos s = .next s) ∧
    (s.st ≠ .dispatching → exec .fsmDisp s = .next s) ∧
    (24 ≤ s.cnt.toNat → exec (.fsmHdr b) s = .next s) ∧ (s.cnt.toNat < 24 → exec (.fsmHdrLast b) s = .next s) ∧
    (3 ≤ s.cnt.toNat → exec (.fsmCrc b) s = .next s) ∧ (s.cnt.toNat < 3 → exec (.fsmCrcLast b) s = .next s)

/-! ### SeekingSync -/

/-- 43_frame_fsm.md R244: the preamble matcher. -/
def Obligations.SeekByteTransition : Prop :=
  ∀ (s : State) (b : Byte), s.st = .seekingSync →
    exec (.fsmSeek b) s = .next
      (if s.m = 2 ∧ b = 0x12 then
        { s with
          buf := ((s.buf.write 0 0xAA).write 1 0x44).write 2 0x12
          n := 3, crcAcc := 0xB34323FF, m := 0, cnt := 0, st := .readingHeader }
       else if s.m = 1 ∧ b = 0x44 then { s with m := 2 }
       else if b = 0xAA then { s with m := 1 }
       else { s with m := 0 })

/-- The preamble row (opcode_table.json SYNC; 43_frame_fsm.md R244 and R245): from any match count, the three bytes AA 44 12
one after another do what the row does, and the accumulator is the CRC of the three bytes. -/
def Obligations.PreambleRowIsThreeSeeks : Prop :=
  ∀ s : State, s.st = .seekingSync →
    runOps [.fsmSeek 0xAA, .fsmSeek 0x44, .fsmSeek 0x12] s = exec .sync s ∧
    ∃ t, exec .sync s = .next t ∧ t.st = .readingHeader ∧ t.m = 0 ∧ t.cnt = 0 ∧ t.n = 3 ∧
      t.crcAcc = computeCrc32 [0xAA, 0x44, 0x12] ∧ t.readBytes 0 3 = [0xAA, 0x44, 0x12] ∧
      (∀ a, 3 ≤ a → t.readByte a = s.readByte a) ∧ t.L = s.L ∧ t.crcRx = s.crcRx ∧ t.evt = s.evt ∧
      t.trace = s.trace ∧ t.result = s.result

/-- 43_frame_fsm.md section 2 (R245): from between frames, a byte string with no preamble in it leaves the block seeking,
every byte consumed and no event. -/
def Obligations.NoPreambleKeepsSeeking : Prop :=
  ∀ (s : State) (bs : List Byte) (rest : List Feed), s.quiet → s.betweenFrames → s.feed = bs.map .byte ++ rest →
    ¬ [0xAA, 0x44, 0x12] <:+: bs →
    ∃ t, Sys2Proof.core.run bs.length s = .next t ∧ t.st = .seekingSync ∧ t.feed = rest ∧
      t.cursor = s.cursor + bs.length ∧ t.output = s.output ∧ t.buf = s.buf

/-- 43_frame_fsm.md section 2 (R245): from between frames, the block enters ReadingHeader at the first byte position at which
the last three bytes consumed are AA 44 12. -/
def Obligations.FirstPreambleStartsTheHeader : Prop :=
  ∀ (s : State) (bs : List Byte) (rest : List Feed), s.quiet → s.betweenFrames →
    s.feed = (bs ++ [0xAA, 0x44, 0x12]).map .byte ++ rest →
    ¬ [0xAA, 0x44, 0x12] <:+: bs ++ [0xAA, 0x44] →
    ∃ t, Sys2Proof.core.run (bs.length + 3) s = .next t ∧ t.st = .readingHeader ∧ t.n = 3 ∧ t.cnt = 0 ∧ t.m = 0 ∧
      t.feed = rest ∧ t.cursor = s.cursor + bs.length + 3 ∧ t.output = s.output

/-! ### Reading a frame -/

/-- 43_frame_fsm.md R248: bytes 1 to 24 of the header. -/
def Obligations.HeaderByteTransition : Prop :=
  ∀ (s : State) (b : Byte), s.st = .readingHeader → s.cnt.toNat ≤ 23 →
    exec (.fsmHdr b) s = .next
      { s with
        buf := s.buf.write (3 + s.cnt.toNat) b
        n := s.n + 1, crcAcc := crc32Step s.crcAcc b, cnt := s.cnt + 1 }

/-- 43_frame_fsm.md R249: the 25th header byte, with both header checks. -/
def Obligations.HeaderCompleteTransition : Prop :=
  ∀ (s t : State) (b : Byte), s.st = .readingHeader → s.cnt = 24 →
    t = { s with buf := s.buf.write 27 b, n := 28, crcAcc := crc32Step s.crcAcc b } →
    exec (.fsmHdrLast b) s = .next
      (if (t.readByte 3).toNat = 28 ∧
          (t.readByte 8).toNat + 256 * (t.readByte 9).toNat ≤ s.cfg.maxPayloadLen.toNat then
        { t with
          L := BitVec.ofNat 16 ((t.readByte 8).toNat + 256 * (t.readByte 9).toNat)
          cnt := 0
          st := if (t.readByte 8).toNat + 256 * (t.readByte 9).toNat = 0 then .readingChecksum else .readingPayload }
       else t.afterDrop .malformedHeader)

/-- 43_frame_fsm.md R250, R252, R255: end of stream inside a frame drops it with the reason of the section, the raw bytes being
every byte stored so far. -/
def Obligations.EndOfStreamDropsTheFrame : Prop :=
  ∀ s : State,
    (s.st = .readingHeader → exec .fsmHdrEos s = .next (s.afterDrop .malformedHeader)) ∧
    (s.st = .readingPayload → exec .fsmPldEos s = .next (s.afterDrop .truncatedPayload)) ∧
    (s.st = .readingChecksum → exec .fsmCrcEos s = .next (s.afterDrop .truncatedChecksum))

/-- 43_frame_fsm.md R251: a payload byte. -/
def Obligations.PayloadByteTransition : Prop :=
  ∀ (s : State) (b : Byte), s.st = .readingPayload → 28 + s.cnt.toNat < 32 + s.cfg.maxPayloadLen.toNat →
    exec (.fsmPld b) s = .next
      (if s.cnt.toNat + 1 = s.L.toNat then
        { s with
          buf := s.buf.write (28 + s.cnt.toNat) b
          n := s.n + 1, crcAcc := crc32Step s.crcAcc b, cnt := 0, st := .readingChecksum }
       else
        { s with
          buf := s.buf.write (28 + s.cnt.toNat) b
          n := s.n + 1, crcAcc := crc32Step s.crcAcc b, cnt := s.cnt + 1 })

/-- 43_frame_fsm.md R253: bytes 1 to 3 of the checksum; bits 8·cnt+7 to 8·cnt of `crc_rx` become the byte, the others stay,
and the accumulator is not changed. -/
def Obligations.ChecksumByteTransition : Prop :=
  ∀ (s : State) (b : Byte), s.st = .readingChecksum → s.cnt.toNat ≤ 2 →
    28 + s.L.toNat + s.cnt.toNat < 32 + s.cfg.maxPayloadLen.toNat →
    ∃ rx : Word, exec (.fsmCrc b) s = .next
        { s with
          buf := s.buf.write (28 + s.L.toNat + s.cnt.toNat) b
          n := s.n + 1, cnt := s.cnt + 1, crcRx := rx } ∧
      ∀ k, k < 32 → rx.getLsbD k =
        (if 8 * s.cnt.toNat ≤ k ∧ k < 8 * s.cnt.toNat + 8 then b.getLsbD (k - 8 * s.cnt.toNat) else s.crcRx.getLsbD k)

/-- 43_frame_fsm.md R254: the 4th checksum byte and the comparison of all 32 bits. -/
def Obligations.ChecksumCompleteTransition : Prop :=
  ∀ (s t : State) (b : Byte), s.st = .readingChecksum → s.cnt = 3 → s.L.toNat ≤ s.cfg.maxPayloadLen.toNat →
    t = { s with
      buf := s.buf.write (31 + s.L.toNat) b
      n := BitVec.ofNat 17 (32 + s.L.toNat)
      crcRx := (b.setWidth 32 <<< 24) ^^^ s.crcRx } →
    exec (.fsmCrcLast b) s = .next
      (if t.crcRx = s.crcAcc then { t with cnt := 0, st := .dispatching } else t.afterDrop .checksumMismatch)

/-- 43_frame_fsm.md R256 with 42_payload_decoder.md R183, R184, R236: what Dispatching does for each message ID and length. -/
def Obligations.DispatchTransition : Prop :=
  ∀ s : State, s.st = .dispatching →
    (s.header.f1 = 42 → s.L = 72 →
      exec .fsmDisp s = .next (s.afterFrame s.header (.positionFix (decodeBestpos s)))) ∧
    (s.header.f1 = 99 → s.L = 44 →
      exec .fsmDisp s = .next (s.afterFrame s.header (.velocityFix (decodeBestvel s)))) ∧
    (s.header.f1 = 42 ∧ s.L ≠ 72 ∨ s.header.f1 = 99 ∧ s.L ≠ 44 →
      exec .fsmDisp s = .next (s.afterDrop .payloadSizeMismatch)) ∧
    (s.header.f1 ≠ 42 → s.header.f1 ≠ 99 →
      exec .fsmDisp s = .next (s.afterFrame s.header (.unrecognized s.header.f1)))

/-- 43_frame_fsm.md R262: the drop sequence, with RAW_ON_DROP (00_scope.md R12) either way. -/
def Obligations.DropSequence : Prop :=
  ∀ (s : State) (reason : Reason),
    exec (.fsmDrop reason) s = .next
      { s with
        trace := s.output
        evt := some ⟨.dropped reason (if s.cfg.rawOnDrop = true then some (s.readBytes 0 s.n.toNat) else none), s.n⟩
        m := 0, cnt := 0, n := 0, L := 0, crcAcc := 0, crcRx := 0, st := .seekingSync }

/-- 20_memory.md section 6 (R72) and 41_header_parser.md section 1: every operation completes in every state, whatever address it
forms. What an address past the end of `buf` does, which no run forms, is the model's choice (log 11): a byte that nothing
has written reads as a free value (log 3), and a store changes no byte of `buf`, with every other effect of the row. -/
def Obligations.NoFaultFromAnAddress : Prop :=
  (∀ (i : Instr) (s : State), ∃ t, exec i s = .next t) ∧
  ∀ (s : State) (b : Byte),
    (∀ a : Addr, s.buf.find a.toNat = none →
      exec (.extU8 a) s = .next { s with result := .u8 (Config.unwrittenByte a.toNat) }) ∧
    (s.st = .readingPayload → 32 + s.cfg.maxPayloadLen.toNat ≤ 28 + s.cnt.toNat →
      exec (.fsmPld b) s = .next
        (if s.cnt.toNat + 1 = s.L.toNat then
          { s with n := s.n + 1, crcAcc := crc32Step s.crcAcc b, cnt := 0, st := .readingChecksum }
         else { s with n := s.n + 1, crcAcc := crc32Step s.crcAcc b, cnt := s.cnt + 1 })) ∧
    (s.st = .readingChecksum → s.cnt.toNat ≤ 2 → 32 + s.cfg.maxPayloadLen.toNat ≤ 28 + s.L.toNat + s.cnt.toNat →
      ∃ rx : Word, exec (.fsmCrc b) s = .next { s with n := s.n + 1, cnt := s.cnt + 1, crcRx := rx } ∧
        ∀ k, k < 32 → rx.getLsbD k =
          (if 8 * s.cnt.toNat ≤ k ∧ k < 8 * s.cnt.toNat + 8 then b.getLsbD (k - 8 * s.cnt.toNat) else s.crcRx.getLsbD k)) ∧
    (∀ t, s.st = .readingChecksum → s.cnt = 3 → s.cfg.maxPayloadLen.toNat < s.L.toNat →
      t = { s with n := BitVec.ofNat 17 (32 + s.L.toNat), crcRx := (b.setWidth 32 <<< 24) ^^^ s.crcRx } →
      exec (.fsmCrcLast b) s = .next
        (if t.crcRx = s.crcAcc then { t with cnt := 0, st := .dispatching } else t.afterDrop .checksumMismatch))

/-! ### Frames of the operations -/

/-- Which byte of `buf` each storing row may change (43_frame_fsm.md R244, R248, R249, R251, R253, R254; 20_memory.md R64), and
that no other row stores anything (10_state.md R34: `frame_clear` leaves `buf`; 40_crc_engine.md R140; 41_header_parser.md
R172): every other byte reads as before. -/
def Obligations.BufferChangesOnlyWhereARowStores : Prop :=
  ∀ (i : Instr) (s t : State) (a : Nat), exec i s = .next t →
    match i with
    | .fsmSeek _ => 3 ≤ a → t.readByte a = s.readByte a
    | .sync => 3 ≤ a → t.readByte a = s.readByte a
    | .fsmHdr _ => a ≠ headerAddr s.cnt.toNat → t.readByte a = s.readByte a
    | .fsmHdrLast _ => a ≠ 27 → t.readByte a = s.readByte a
    | .fsmPld _ => a ≠ payloadAddr s.cnt.toNat → t.readByte a = s.readByte a
    | .fsmCrc _ => a ≠ checksumAddr s.L + s.cnt.toNat → t.readByte a = s.readByte a
    | .fsmCrcLast _ => a ≠ checksumAddr s.L + 3 → t.readByte a = s.readByte a
    | _ => t.readByte a = s.readByte a

/-- The functions are pure (40_crc_engine.md R140, 41_header_parser.md R172): a FUNC or WIRE-MSGID operation other than
CRC.CLR, CRC.ABSORB and PLD.DISPATCH changes nothing but the result port (the model's own: log 8). -/
def Obligations.FunctionsChangeOnlyTheResult : Prop :=
  ∀ (i : Instr) (s t : State), i.format = .func ∨ i.format = .wireMsgid → i ≠ .crcClr → (∀ b, i ≠ .crcAbsorb b) →
    (∀ id l, i ≠ .pldDispatch id l) → exec i s = .next t → t = { s with result := t.result }

/-! ### CRC Engine -/

/-- 40_crc_engine.md R132 to R135: the eight iterations, the byte step, the fold from 0 with the first byte first, and the
comparison of all 32 bits. -/
def Obligations.CrcFunctions : Prop :=
  ∀ (s : State) (v acc rx : Word) (b : Byte) (d : List Byte),
    exec (.crcLoop8 v) s = .next { s with
      result := .u32 (crcBit (crcBit (crcBit (crcBit (crcBit (crcBit (crcBit (crcBit v)))))))) } ∧
    exec (.crcStep acc b) s = .next { s with
      result := .u32 ((acc >>> 8) ^^^ crcLoop8 (BitVec.ofNat 32 (acc.toNat % 256) ^^^ b.setWidth 32)) } ∧
    computeCrc32 [] = 0 ∧ computeCrc32 (d ++ [b]) = crc32Step (computeCrc32 d) b ∧
    exec (.crcCompute d) s = .next { s with result := .u32 (computeCrc32 d) } ∧
    exec (.crcVerify d rx) s = .next { s with result := .bit (decide (computeCrc32 d = rx)) }

/-- 40_crc_engine.md R136, R137: the two register operations. -/
def Obligations.CrcRegisterOperations : Prop :=
  ∀ (s : State) (b : Byte),
    exec .crcClr s = .next { s with crcAcc := 0x00000000 } ∧
    exec (.crcAbsorb b) s = .next { s with crcAcc := crc32Step s.crcAcc b }

/-- 40_crc_engine.md section 4 (R138): clearing and absorbing byte by byte leaves `compute_crc32` in the accumulator, and
nothing else changes. -/
def Obligations.StreamingEqualsFolding : Prop :=
  ∀ (s : State) (d : List Byte),
    runOps (.crcClr :: d.map .crcAbsorb) s = .next { s with crcAcc := computeCrc32 d }

/-- 40_crc_engine.md sections 2 and 4 (R131, R139): the bit step, which the spec takes from general knowledge (log 19), and the
one-loop form of the byte step that follows from it. -/
def Obligations.CrcBitStepAndOneLoopForm : Prop :=
  ∀ (s : State) (v p : Word) (b : Byte),
    exec (.crcBit v) s = .next { s with
      result := .u32 (if v.getLsbD 0 = true then (v >>> 1) ^^^ 0xEDB88320 else v >>> 1) } ∧
    crc32Step p b = crcLoop8 (p ^^^ b.setWidth 32)

/-- 40_crc_engine.md section 4 (R141 c, U11): changing one byte always changes the CRC. -/
def Obligations.SingleByteErrorsAreDetected : Prop :=
  ∀ (before after : List Byte) (x y : Byte), x ≠ y →
    computeCrc32 (before ++ x :: after) ≠ computeCrc32 (before ++ y :: after)

/-- 40_crc_engine.md section 4 (R141 d): the CRC of data followed by its own little-endian checksum is 0. -/
def Obligations.CrcResidueIsZero : Prop :=
  ∀ d : List Byte, computeCrc32 (d ++ leBytes 4 (computeCrc32 d).toNat) = 0

/-! ### Extractors and the Header Decoder -/

/-- 41_header_parser.md R150 to R154: the integer extractors are little-endian, unsigned or two's complement, at any address
(20_memory.md R67). -/
def Obligations.IntegerExtractors : Prop :=
  ∀ (s : State) (a : Addr),
    exec (.extU8 a) s = .next { s with result := .u8 (s.readByte a.toNat) } ∧
    exec (.extI8 a) s = .next { s with result := .i8 (s.readByte a.toNat) } ∧
    (s.readByte a.toNat).toInt = (if (s.readByte a.toNat).toNat < 128 then ((s.readByte a.toNat).toNat : Int)
      else (s.readByte a.toNat).toNat - 256) ∧
    (∃ v, exec (.extU16 a) s = .next { s with result := .u16 v } ∧
      v.toNat = (s.readByte a.toNat).toNat + 256 * (s.readByte (a.toNat + 1)).toNat) ∧
    (∃ v : Word,
      exec (.extU32 a) s = .next { s with result := .u32 v } ∧ exec (.extI32 a) s = .next { s with result := .i32 v } ∧
      v.toNat = (s.readByte a.toNat).toNat + 2 ^ 8 * (s.readByte (a.toNat + 1)).toNat +
        2 ^ 16 * (s.readByte (a.toNat + 2)).toNat + 2 ^ 24 * (s.readByte (a.toNat + 3)).toNat ∧
      v.toInt = (if v.toNat < 2 ^ 31 then (v.toNat : Int) else v.toNat - 2 ^ 32))

/-- 42_payload_decoder.md R180, R181: the floating-point extractors carry the pattern unchanged: bit `8·j + k` of the pattern is bit
`k` of the byte at `a + j`, at any address `a` (20_memory.md R67). -/
def Obligations.FloatExtractorsCarryPatterns : Prop :=
  ∀ (s : State) (a : Addr),
    (∃ v : Word, exec (.extF32 a) s = .next { s with result := .f32 v } ∧
      ∀ j k, j < 4 → k < 8 → v.getLsbD (8 * j + k) = (s.readByte (a.toNat + j)).getLsbD k) ∧
    (∃ v : Dword, exec (.extF64 a) s = .next { s with result := .f64 v } ∧
      ∀ j k, j < 8 → k < 8 → v.getLsbD (8 * j + k) = (s.readByte (a.toNat + j)).getLsbD k)

/-- 20_memory.md R73 and R62, section 7: a read returns the value of the last write to that address, and a write touches no
other address. -/
def Obligations.ReadReturnsLastWrite : Prop :=
  ∀ (s : State) (a b : Nat) (v : Byte), (s.memWrite a v).readByte b = if b = a then v else s.readByte b

/-- 41_header_parser.md R155 with 30_encoding.md R93: HDR.PARSE on its result port. More than 25 bytes are never presented
(R155); the operation completes on them with a free header (log 14). -/
def Obligations.HeaderParse : Prop :=
  ∀ (s : State) (h : List Byte),
    (25 < h.length → ∃ x : Header, exec (.hdrParse h) s = .next { s with result := .header x }) ∧
    (h.length < 25 → exec (.hdrParse h) s = .next { s with result := .error .malformedHeader }) ∧
    (h.length = 25 → ∃ x : Header, exec (.hdrParse h) s = .next { s with result := .header x } ∧
      x.f0 = h.getD 0 0 ∧ x.f1.toNat = (h.getD 1 0).toNat + 256 * (h.getD 2 0).toNat ∧ x.f2 = h.getD 3 0 ∧
      x.f3 = h.getD 4 0 ∧ x.f4.toNat = (h.getD 5 0).toNat + 256 * (h.getD 6 0).toNat ∧
      x.f5.toNat = (h.getD 7 0).toNat + 256 * (h.getD 8 0).toNat ∧ x.f6 = h.getD 9 0 ∧ x.f7 = h.getD 10 0 ∧
      x.f8.toNat = (h.getD 11 0).toNat + 256 * (h.getD 12 0).toNat ∧
      x.f9.toNat = (h.getD 13 0).toNat + 2 ^ 8 * (h.getD 14 0).toNat + 2 ^ 16 * (h.getD 15 0).toNat +
        2 ^ 24 * (h.getD 16 0).toNat ∧
      x.f10.toNat = (h.getD 17 0).toNat + 2 ^ 8 * (h.getD 18 0).toNat + 2 ^ 16 * (h.getD 19 0).toNat +
        2 ^ 24 * (h.getD 20 0).toNat ∧
      x.f11.toNat = (h.getD 21 0).toNat + 256 * (h.getD 22 0).toNat ∧
      x.f12.toNat = (h.getD 23 0).toNat + 256 * (h.getD 24 0).toNat)

/-- 41_header_parser.md section 2 (R156 to R168): the header of the frame in progress, field by field from its buffer address. -/
def Obligations.HeaderFieldsComeFromTheirAddresses : Prop :=
  ∀ s : State,
    parseHeader (s.readBytes 3 25) = some s.header ∧
    s.header = {
      f0 := extU8 s 3, f1 := extU16 s 4, f2 := extI8 s 6, f3 := extU8 s 7, f4 := extU16 s 8, f5 := extU16 s 10
      f6 := extU8 s 12, f7 := extU8 s 13, f8 := extU16 s 14, f9 := extI32 s 16, f10 := extU32 s 20
      f11 := extU16 s 24, f12 := extU16 s 26 }

/-- 41_header_parser.md R170: the header-length check, over unbounded integers. -/
def Obligations.HeaderValidate : Prop :=
  ∀ (s : State) (hl : Byte) (consumed : Nat),
    exec (.hdrValidate hl consumed) s = .next { s with result := .bit (decide (consumed + 3 = hl.toNat)) } ∧
    (validateHeaderLength hl 25 = true ↔ hl = 28)

/-! ### Payload Decoder -/

/-- 42_payload_decoder.md R185 to R210: PLD.BESTPOS field by field. -/
def Obligations.BestposRecord : Prop :=
  ∀ s : State,
    exec .pldBestpos s = .next { s with result := .body (.positionFix {
      solStatus := extI32 s 28, posType := extI32 s 32, lat := extF64 s 36, lon := extF64 s 44, hgt := extF64 s 52
      undulation := extF32 s 60, datumId := extI32 s 64, latStd := extF32 s 68, lonStd := extF32 s 72
      hgtStd := extF32 s 76, baseId := extI32 s 80, diffAge := extF32 s 84, solAge := extF32 s 88
      svs := extU8 s 92, solnSvs := extU8 s 93, rsv0 := extU8 s 94, rsv1 := extU8 s 95, rsv2 := extU8 s 96
      rsv3 := extU8 s 97, rsv4 := extU8 s 98, rsv5 := extU8 s 99
      fixQuality := if extI32 s 28 = 0 ∧ extI32 s 32 = 50 then .gpsFix
        else if extI32 s 28 = 0 ∧ extI32 s 32 = 18 then .sbasFix else .noFix
      covType := .diagonalKnown, varLat := extF32 s 68, varLon := extF32 s 72, varHgt := extF32 s 76
      satsVisible := extU8 s 92, satsUsed := extU8 s 93 }) }

/-- 42_payload_decoder.md section 4, R232, R233: PLD.BESTVEL field by field, whatever the four arithmetic functions are. The
reserved field stands at address 68, payload offset 40, as 20_memory.md R64 and 30_encoding.md R100 place it (log 16); the
pattern of the constant is R230's, a general-knowledge conversion (log 19, PRESUMED). -/
def Obligations.BestvelRecord : Prop :=
  ∀ s : State,
    exec .pldBestvel s = .next { s with result := .body (.velocityFix {
      solStatus := extI32 s 28, velType := extI32 s 32, latency := extF32 s 36, age := extF32 s 40
      horSpeed := extF64 s 44, trackGnd := extF64 s 52, vertSpeed := extF64 s 60, rsv := extF32 s 68
      vx := Config.fmul (Config.fmul (extF64 s 44) 0x3FE07654320FDE28) (Config.fsin (Config.radians (extF64 s 52)))
      vy := Config.fmul (Config.fmul (extF64 s 44) 0x3FE07654320FDE28) (Config.fcos (Config.radians (extF64 s 52)))
      }) }

/-- 42_payload_decoder.md R207, R208, R209, and R184 for PLD.UNREC: these rows on the result port. -/
def Obligations.DerivedValues : Prop :=
  ∀ (s : State) (id : Half) (ss pt x y z : Word) (u w : Byte),
    (id ≠ 42 → id ≠ 99 → exec (.pldUnrec id) s = .next { s with result := .body (.unrecognized id) }) ∧
    exec (.pldFixq ss pt) s = .next { s with result := .fixQuality (
      if ss = 0 ∧ pt = 50 then .gpsFix else if ss = 0 ∧ pt = 18 then .sbasFix else .noFix) } ∧
    exec (.pldCov x y z) s = .next { s with
      result := .covariance { varLat := x, varLon := y, varHgt := z, covType := .diagonalKnown } } ∧
    exec (.pldSats u w) s = .next { s with result := .satCounts u w }

/-- 42_payload_decoder.md section 5 (R232, R233): the planar velocity, products left to right, whatever the four arithmetic
functions are (log 2); the pattern of the constant is the spec's conversion of its decimal literal (R230, log 19). -/
def Obligations.PlanarVelocity : Prop :=
  ∀ (s : State) (h a : Dword),
    exec (.pldVx h a) s = .next { s with
      result := .f64 (Config.fmul (Config.fmul h 0x3FE07654320FDE28) (Config.fsin (Config.radians a))) } ∧
    exec (.pldVy h a) s = .next { s with
      result := .f64 (Config.fmul (Config.fmul h 0x3FE07654320FDE28) (Config.fcos (Config.radians a))) }

/-- 42_payload_decoder.md section 2 (R183, R184, R236): PLD.DISPATCH run by itself. That it drops the frame in
progress, in whatever state it is run, is the model's choice (log 8, DESIGN CHOICE): R183 calls it from Dispatching only. -/
def Obligations.DispatchByMessageId : Prop :=
  ∀ (s : State) (id len : Half),
    exec (.pldDispatch id len) s = .next
      (if id = 42 then
        if len = 72 then { s with result := .body (.positionFix (decodeBestpos s)) }
        else s.afterDrop .payloadSizeMismatch
       else if id = 99 then
        if len = 44 then { s with result := .body (.velocityFix (decodeBestvel s)) }
        else s.afterDrop .payloadSizeMismatch
       else { s with result := .body (.unrecognized id) })

/-- 95_test_vectors.md S-P2 (30_encoding.md R97, R117): encoding a header or a payload and decoding it gives the same values
back, bit for bit, with the derived values of 42_payload_decoder.md R207 to R209, R232, R233. -/
def Obligations.RecordsRoundTrip : Prop :=
  (∀ h : Header, (headerBytes h).length = 25 ∧ parseHeader (headerBytes h) = some h) ∧
  (∀ (s : State) (r : PositionFix), s.readBytes 28 72 = bestposBytes r →
    decodeBestpos s = { r with
      fixQuality := fixQuality r.solStatus r.posType, covType := .diagonalKnown
      varLat := r.latStd, varLon := r.lonStd, varHgt := r.hgtStd, satsVisible := r.svs, satsUsed := r.solnSvs }) ∧
  (∀ (s : State) (r : VelocityFix), s.readBytes 28 44 = bestvelBytes r →
    decodeBestvel s = { r with vx := vx r.horSpeed r.trackGnd, vy := vy r.horSpeed r.trackGnd })

/-! ### Whole frames -/

/-- 95_test_vectors.md S-P2, S-E (43_frame_fsm.md R244 to R256): from between frames, a well-formed frame of any other message ID, any
header values and any payload is decoded to `Unrecognized(id)` with its header, and the block is between frames again
right behind it. Anything may follow the frame but `rst`; the dispatching step samples a level change that does (log 4). -/
def Obligations.UnrecognizedFrameIsDecoded : Prop :=
  ∀ (s : State) (h : Header) (payload : List Byte) (rest : List Feed), s.quiet → s.betweenFrames →
    s.feed = (frameWith h payload).map .byte ++ rest → h.f0 = 28 → h.f4.toNat = payload.length →
    payload.length ≤ s.cfg.maxPayloadLen.toNat → h.f1 ≠ 42 → h.f1 ≠ 99 → { s with feed := rest }.sample.rst = false →
    ∃ t, Sys2Proof.core.run (33 + payload.length) s = .next t ∧
      t.evt = some ⟨.frame h (.unrecognized h.f1), BitVec.ofNat 17 (32 + payload.length)⟩ ∧ t.betweenFrames ∧
      t.feed = { s with feed := rest }.sample.feed ∧ t.cursor = s.cursor + 32 + payload.length ∧ t.trace = s.trace

/-- 95_test_vectors.md S-P2, S-B, S-C: the same for a BESTPOS frame: every field of the record comes back. -/
def Obligations.BestposFrameIsDecoded : Prop :=
  ∀ (s : State) (h : Header) (r : PositionFix) (rest : List Feed), s.quiet → s.betweenFrames →
    s.feed = (frameWith h (bestposBytes r)).map .byte ++ rest → h.f0 = 28 → h.f1 = 42 → h.f4 = 72 →
    72 ≤ s.cfg.maxPayloadLen.toNat → { s with feed := rest }.sample.rst = false →
    ∃ t, Sys2Proof.core.run 105 s = .next t ∧
      t.evt = some ⟨.frame h (.positionFix { r with
        fixQuality := fixQuality r.solStatus r.posType, covType := .diagonalKnown
        varLat := r.latStd, varLon := r.lonStd, varHgt := r.hgtStd
        satsVisible := r.svs, satsUsed := r.solnSvs }), 104⟩ ∧
      t.betweenFrames ∧ t.feed = { s with feed := rest }.sample.feed ∧ t.cursor = s.cursor + 104 ∧ t.trace = s.trace

/-- 95_test_vectors.md S-P2, S-D: the same for a BESTVEL frame, whatever the four arithmetic functions are. -/
def Obligations.BestvelFrameIsDecoded : Prop :=
  ∀ (s : State) (h : Header) (r : VelocityFix) (rest : List Feed), s.quiet → s.betweenFrames →
    s.feed = (frameWith h (bestvelBytes r)).map .byte ++ rest → h.f0 = 28 → h.f1 = 99 → h.f4 = 44 →
    44 ≤ s.cfg.maxPayloadLen.toNat → { s with feed := rest }.sample.rst = false →
    ∃ t, Sys2Proof.core.run 77 s = .next t ∧
      t.evt = some ⟨.frame h (.velocityFix { r with
        vx := vx r.horSpeed r.trackGnd, vy := vy r.horSpeed r.trackGnd }), 76⟩ ∧
      t.betweenFrames ∧ t.feed = { s with feed := rest }.sample.feed ∧ t.cursor = s.cursor + 76 ∧ t.trace = s.trace

/-- 43_frame_fsm.md R254, 60_exceptions.md R283, section 1: a frame whose checksum field differs from the CRC of its covered bytes
is dropped with ChecksumMismatch and all of its bytes (none when RAW_ON_DROP is false, 00_scope.md R12), and never dispatched. -/
def Obligations.BadChecksumIsDropped : Prop :=
  ∀ (s : State) (h : Header) (payload : List Byte) (c : Word) (rest : List Feed), s.quiet → s.betweenFrames →
    s.feed = (syncBytes ++ headerBytes h ++ payload ++ leBytes 4 c.toNat).map .byte ++ rest →
    h.f0 = 28 → h.f4.toNat = payload.length → payload.length ≤ s.cfg.maxPayloadLen.toNat →
    c ≠ computeCrc32 (syncBytes ++ headerBytes h ++ payload) →
    ∃ t, Sys2Proof.core.run (32 + payload.length) s = .next t ∧
      t.evt = some ⟨.dropped .checksumMismatch
        (if s.cfg.rawOnDrop = true then some (syncBytes ++ headerBytes h ++ payload ++ leBytes 4 c.toNat) else none),
        BitVec.ofNat 17 (32 + payload.length)⟩ ∧
      t.betweenFrames ∧ t.feed = rest ∧ t.trace = s.trace

/-! ### Ports -/

/-- 10_state.md section 4 (R30), 30_encoding.md section 1 (R94) and section 8 (R114, R115): the outputs while an event waits. The
model's choices in it (DESIGN CHOICE): the raw port shows a dropped frame's bytes whatever RAW_ON_DROP is, and `raw_len` is
latched with the event (log 17); position and velocity outputs that are not meaningful are absent (log 17), and so are the
frame kind and the header outputs of a Dropped event, and the raw port at or past `raw_len` (log 21). -/
def Obligations.PortOutputs : Prop :=
  ∀ (s : State) (reason : Reason),
    (s.haltedOut = true ↔ s.st = .halted) ∧
    (s.srcReady = true ↔ s.evt = none ∧ (s.st = .seekingSync ∨ s.st = .readingHeader ∨ s.st = .readingPayload ∨
      s.st = .readingChecksum)) ∧
    (s.evtValid = true ↔ s.evt ≠ none) ∧
    (s.afterDrop reason).rawLen = some s.n ∧ (s.afterDrop reason).evtKind = some 1 ∧
    (s.afterDrop reason).evtReason = some reason.code ∧
    (∀ hdr body len, s.evt = some ⟨.frame hdr body, len⟩ →
      s.evtKind = some 0 ∧ s.evtReason = some 0 ∧ s.evtFrameKind = some body.kind ∧ s.evtHeader = some hdr ∧
      s.evtGpsWeek = some (if s.cfg.weekField = .f5 then hdr.f5 else hdr.f8) ∧ s.rawLen = some len ∧
      s.evtPosition = (match body with
        | .positionFix r => some r
        | .velocityFix _ => none
        | .unrecognized _ => none) ∧
      s.evtVelocity = (match body with
        | .velocityFix r => some r
        | .positionFix _ => none
        | .unrecognized _ => none)) ∧
    (s.afterDrop reason).evtFrameKind = none ∧ (s.afterDrop reason).evtHeader = none ∧
    (s.afterDrop reason).evtPosition = none ∧ (s.afterDrop reason).evtVelocity = none ∧
    (∀ a : Addr, (s.afterDrop reason).rawData a = if a.toNat < s.n.toNat then some (s.readByte a.toNat) else none)
end

