-- ==== Sys2Proof/Laws/Bytes.lean ====
section
/-! SUPPORT. Little-endian byte sequences: `le` and `leBytes` undo each other. -/

namespace Sys2Proof.Laws

@[simp] theorem le_nil : le [] = 0 := rfl

@[simp] theorem le_cons (b : Byte) (bs : List Byte) : le (b :: bs) = b.toNat + 256 * le bs := rfl

@[simp] theorem leBytes_zero (v : Nat) : leBytes 0 v = [] := rfl

@[simp] theorem leBytes_succ (k v : Nat) : leBytes (k + 1) v = BitVec.ofNat 8 v :: leBytes k (v / 256) := rfl

@[simp] theorem length_leBytes (k v : Nat) : (leBytes k v).length = k := by
  induction k generalizing v with
  | zero => rfl
  | succ k ih => simp [ih]

theorem le_append (xs ys : List Byte) : le (xs ++ ys) = le xs + 256 ^ xs.length * le ys := by
  induction xs with
  | nil => simp
  | cons x xs ih => simp [ih, pow_succ]; ring

theorem le_lt (bs : List Byte) : le bs < 256 ^ bs.length := by
  induction bs with
  | nil => simp
  | cons b bs ih =>
    have := b.isLt
    simp only [le_cons, List.length_cons, pow_succ]
    omega

theorem le_leBytes (k v : Nat) : le (leBytes k v) = v % 256 ^ k := by
  induction k generalizing v with
  | zero => simp [Nat.mod_one]
  | succ k ih =>
    have h : v % 256 ^ (k + 1) = v % 256 + 256 * (v / 256 % 256 ^ k) := by
      rw [pow_succ', Nat.mod_mul]
    simp [ih, h]

theorem leBytes_le (bs : List Byte) : leBytes bs.length (le bs) = bs := by
  induction bs with
  | nil => rfl
  | cons b bs ih =>
    have hb := b.isLt
    have h1 : (b.toNat + 256 * le bs) / 256 = le bs := by omega
    have h2 : BitVec.ofNat 8 (b.toNat + 256 * le bs) = b := by
      apply BitVec.eq_of_toNat_eq
      simp only [BitVec.toNat_ofNat]
      omega
    simp [h1, h2, ih]

/-- An operand's bytes give the operand back. -/
theorem ofNat_le_leBytes (k : Nat) (v : BitVec (8 * k)) : BitVec.ofNat (8 * k) (le (leBytes k v.toNat)) = v := by
  have h : (256 : Nat) ^ k = 2 ^ (8 * k) := by rw [pow_mul]; norm_num
  apply BitVec.eq_of_toNat_eq
  rw [le_leBytes, h, Nat.mod_eq_of_lt v.isLt, BitVec.toNat_ofNat, Nat.mod_eq_of_lt v.isLt]

/-- A decoder that takes an encoded operand off the front goes on with that operand and the bytes after it. -/
theorem takeWord_leBytes (k : Nat) (v : BitVec (8 * k)) (rest : List Byte) (f : BitVec (8 * k) → List Byte → Decoded) :
    takeWord k (leBytes k v.toNat ++ rest) f = f v rest := by
  have hl : (leBytes k v.toNat).length = k := length_leBytes k v.toNat
  simp [takeWord, hl, ofNat_le_leBytes]

end Sys2Proof.Laws
end

