-- ==== Sys2Proof/Laws/State.lean ====
section
/-! SUPPORT. What each named update of the state does to each field: one lemma per field per update. -/

namespace Sys2Proof.Laws

open Sys2Proof.Machine

variable (s : State)

@[simp] theorem memWrite_st (a : Nat) (v : Byte) : (s.memWrite a v).st = s.st := rfl
@[simp] theorem memWrite_m (a : Nat) (v : Byte) : (s.memWrite a v).m = s.m := rfl
@[simp] theorem memWrite_cnt (a : Nat) (v : Byte) : (s.memWrite a v).cnt = s.cnt := rfl
@[simp] theorem memWrite_n (a : Nat) (v : Byte) : (s.memWrite a v).n = s.n := rfl
@[simp] theorem memWrite_L (a : Nat) (v : Byte) : (s.memWrite a v).L = s.L := rfl
@[simp] theorem memWrite_crcAcc (a : Nat) (v : Byte) : (s.memWrite a v).crcAcc = s.crcAcc := rfl
@[simp] theorem memWrite_crcRx (a : Nat) (v : Byte) : (s.memWrite a v).crcRx = s.crcRx := rfl
@[simp] theorem memWrite_buf (a : Nat) (v : Byte) : (s.memWrite a v).buf = s.buf.write a v := rfl
@[simp] theorem memWrite_evt (a : Nat) (v : Byte) : (s.memWrite a v).evt = s.evt := rfl
@[simp] theorem memWrite_feed (a : Nat) (v : Byte) : (s.memWrite a v).feed = s.feed := rfl
@[simp] theorem memWrite_cursor (a : Nat) (v : Byte) : (s.memWrite a v).cursor = s.cursor := rfl
@[simp] theorem memWrite_eos (a : Nat) (v : Byte) : (s.memWrite a v).eos = s.eos := rfl
@[simp] theorem memWrite_stopReq (a : Nat) (v : Byte) : (s.memWrite a v).stopReq = s.stopReq := rfl
@[simp] theorem memWrite_rst (a : Nat) (v : Byte) : (s.memWrite a v).rst = s.rst := rfl
@[simp] theorem memWrite_evtReady (a : Nat) (v : Byte) : (s.memWrite a v).evtReady = s.evtReady := rfl
@[simp] theorem memWrite_trace (a : Nat) (v : Byte) : (s.memWrite a v).trace = s.trace := rfl
@[simp] theorem memWrite_cfg (a : Nat) (v : Byte) : (s.memWrite a v).cfg = s.cfg := rfl
@[simp] theorem memWrite_op (a : Nat) (v : Byte) : (s.memWrite a v).op = s.op := rfl
@[simp] theorem memWrite_result (a : Nat) (v : Byte) : (s.memWrite a v).result = s.result := rfl

@[simp] theorem store_st (a : Nat) (v : Byte) : (s.store a v).st = s.st := by
  unfold State.store; split <;> rfl
@[simp] theorem store_m (a : Nat) (v : Byte) : (s.store a v).m = s.m := by
  unfold State.store; split <;> rfl
@[simp] theorem store_cnt (a : Nat) (v : Byte) : (s.store a v).cnt = s.cnt := by
  unfold State.store; split <;> rfl
@[simp] theorem store_n (a : Nat) (v : Byte) : (s.store a v).n = s.n := by
  unfold State.store; split <;> rfl
@[simp] theorem store_L (a : Nat) (v : Byte) : (s.store a v).L = s.L := by
  unfold State.store; split <;> rfl
@[simp] theorem store_crcAcc (a : Nat) (v : Byte) : (s.store a v).crcAcc = s.crcAcc := by
  unfold State.store; split <;> rfl
@[simp] theorem store_crcRx (a : Nat) (v : Byte) : (s.store a v).crcRx = s.crcRx := by
  unfold State.store; split <;> rfl
@[simp] theorem store_buf (a : Nat) (v : Byte) : (s.store a v).buf = if s.inSpace a then s.buf.write a v else s.buf := by
  unfold State.store; split <;> rfl
@[simp] theorem store_evt (a : Nat) (v : Byte) : (s.store a v).evt = s.evt := by
  unfold State.store; split <;> rfl
@[simp] theorem store_feed (a : Nat) (v : Byte) : (s.store a v).feed = s.feed := by
  unfold State.store; split <;> rfl
@[simp] theorem store_cursor (a : Nat) (v : Byte) : (s.store a v).cursor = s.cursor := by
  unfold State.store; split <;> rfl
@[simp] theorem store_eos (a : Nat) (v : Byte) : (s.store a v).eos = s.eos := by
  unfold State.store; split <;> rfl
@[simp] theorem store_stopReq (a : Nat) (v : Byte) : (s.store a v).stopReq = s.stopReq := by
  unfold State.store; split <;> rfl
@[simp] theorem store_rst (a : Nat) (v : Byte) : (s.store a v).rst = s.rst := by
  unfold State.store; split <;> rfl
@[simp] theorem store_evtReady (a : Nat) (v : Byte) : (s.store a v).evtReady = s.evtReady := by
  unfold State.store; split <;> rfl
@[simp] theorem store_trace (a : Nat) (v : Byte) : (s.store a v).trace = s.trace := by
  unfold State.store; split <;> rfl
@[simp] theorem store_cfg (a : Nat) (v : Byte) : (s.store a v).cfg = s.cfg := by
  unfold State.store; split <;> rfl
@[simp] theorem store_op (a : Nat) (v : Byte) : (s.store a v).op = s.op := by
  unfold State.store; split <;> rfl
@[simp] theorem store_result (a : Nat) (v : Byte) : (s.store a v).result = s.result := by
  unfold State.store; split <;> rfl

@[simp] theorem crcClear_st : s.crcClear.st = s.st := rfl
@[simp] theorem crcClear_m : s.crcClear.m = s.m := rfl
@[simp] theorem crcClear_cnt : s.crcClear.cnt = s.cnt := rfl
@[simp] theorem crcClear_n : s.crcClear.n = s.n := rfl
@[simp] theorem crcClear_L : s.crcClear.L = s.L := rfl
@[simp] theorem crcClear_crcAcc : s.crcClear.crcAcc = 0 := rfl
@[simp] theorem crcClear_crcRx : s.crcClear.crcRx = s.crcRx := rfl
@[simp] theorem crcClear_buf : s.crcClear.buf = s.buf := rfl
@[simp] theorem crcClear_evt : s.crcClear.evt = s.evt := rfl
@[simp] theorem crcClear_feed : s.crcClear.feed = s.feed := rfl
@[simp] theorem crcClear_cursor : s.crcClear.cursor = s.cursor := rfl
@[simp] theorem crcClear_eos : s.crcClear.eos = s.eos := rfl
@[simp] theorem crcClear_stopReq : s.crcClear.stopReq = s.stopReq := rfl
@[simp] theorem crcClear_rst : s.crcClear.rst = s.rst := rfl
@[simp] theorem crcClear_evtReady : s.crcClear.evtReady = s.evtReady := rfl
@[simp] theorem crcClear_trace : s.crcClear.trace = s.trace := rfl
@[simp] theorem crcClear_cfg : s.crcClear.cfg = s.cfg := rfl
@[simp] theorem crcClear_op : s.crcClear.op = s.op := rfl
@[simp] theorem crcClear_result : s.crcClear.result = s.result := rfl

@[simp] theorem crcAbsorb_st (b : Byte) : (s.crcAbsorb b).st = s.st := rfl
@[simp] theorem crcAbsorb_m (b : Byte) : (s.crcAbsorb b).m = s.m := rfl
@[simp] theorem crcAbsorb_cnt (b : Byte) : (s.crcAbsorb b).cnt = s.cnt := rfl
@[simp] theorem crcAbsorb_n (b : Byte) : (s.crcAbsorb b).n = s.n := rfl
@[simp] theorem crcAbsorb_L (b : Byte) : (s.crcAbsorb b).L = s.L := rfl
@[simp] theorem crcAbsorb_crcAcc (b : Byte) : (s.crcAbsorb b).crcAcc = crc32Step s.crcAcc b := rfl
@[simp] theorem crcAbsorb_crcRx (b : Byte) : (s.crcAbsorb b).crcRx = s.crcRx := rfl
@[simp] theorem crcAbsorb_buf (b : Byte) : (s.crcAbsorb b).buf = s.buf := rfl
@[simp] theorem crcAbsorb_evt (b : Byte) : (s.crcAbsorb b).evt = s.evt := rfl
@[simp] theorem crcAbsorb_feed (b : Byte) : (s.crcAbsorb b).feed = s.feed := rfl
@[simp] theorem crcAbsorb_cursor (b : Byte) : (s.crcAbsorb b).cursor = s.cursor := rfl
@[simp] theorem crcAbsorb_eos (b : Byte) : (s.crcAbsorb b).eos = s.eos := rfl
@[simp] theorem crcAbsorb_stopReq (b : Byte) : (s.crcAbsorb b).stopReq = s.stopReq := rfl
@[simp] theorem crcAbsorb_rst (b : Byte) : (s.crcAbsorb b).rst = s.rst := rfl
@[simp] theorem crcAbsorb_evtReady (b : Byte) : (s.crcAbsorb b).evtReady = s.evtReady := rfl
@[simp] theorem crcAbsorb_trace (b : Byte) : (s.crcAbsorb b).trace = s.trace := rfl
@[simp] theorem crcAbsorb_cfg (b : Byte) : (s.crcAbsorb b).cfg = s.cfg := rfl
@[simp] theorem crcAbsorb_op (b : Byte) : (s.crcAbsorb b).op = s.op := rfl
@[simp] theorem crcAbsorb_result (b : Byte) : (s.crcAbsorb b).result = s.result := rfl

@[simp] theorem frameClear_st : s.frameClear.st = s.st := rfl
@[simp] theorem frameClear_m : s.frameClear.m = 0 := rfl
@[simp] theorem frameClear_cnt : s.frameClear.cnt = 0 := rfl
@[simp] theorem frameClear_n : s.frameClear.n = 0 := rfl
@[simp] theorem frameClear_L : s.frameClear.L = 0 := rfl
@[simp] theorem frameClear_crcAcc : s.frameClear.crcAcc = 0 := rfl
@[simp] theorem frameClear_crcRx : s.frameClear.crcRx = 0 := rfl
@[simp] theorem frameClear_buf : s.frameClear.buf = s.buf := rfl
@[simp] theorem frameClear_evt : s.frameClear.evt = s.evt := rfl
@[simp] theorem frameClear_feed : s.frameClear.feed = s.feed := rfl
@[simp] theorem frameClear_cursor : s.frameClear.cursor = s.cursor := rfl
@[simp] theorem frameClear_eos : s.frameClear.eos = s.eos := rfl
@[simp] theorem frameClear_stopReq : s.frameClear.stopReq = s.stopReq := rfl
@[simp] theorem frameClear_rst : s.frameClear.rst = s.rst := rfl
@[simp] theorem frameClear_evtReady : s.frameClear.evtReady = s.evtReady := rfl
@[simp] theorem frameClear_trace : s.frameClear.trace = s.trace := rfl
@[simp] theorem frameClear_cfg : s.frameClear.cfg = s.cfg := rfl
@[simp] theorem frameClear_op : s.frameClear.op = s.op := rfl
@[simp] theorem frameClear_result : s.frameClear.result = s.result := rfl

@[simp] theorem endFrame_st : s.endFrame.st = .seekingSync := rfl
@[simp] theorem endFrame_m : s.endFrame.m = 0 := rfl
@[simp] theorem endFrame_cnt : s.endFrame.cnt = 0 := rfl
@[simp] theorem endFrame_n : s.endFrame.n = 0 := rfl
@[simp] theorem endFrame_L : s.endFrame.L = 0 := rfl
@[simp] theorem endFrame_crcAcc : s.endFrame.crcAcc = 0 := rfl
@[simp] theorem endFrame_crcRx : s.endFrame.crcRx = 0 := rfl
@[simp] theorem endFrame_buf : s.endFrame.buf = s.buf := rfl
@[simp] theorem endFrame_evt : s.endFrame.evt = s.evt := rfl
@[simp] theorem endFrame_feed : s.endFrame.feed = s.feed := rfl
@[simp] theorem endFrame_cursor : s.endFrame.cursor = s.cursor := rfl
@[simp] theorem endFrame_eos : s.endFrame.eos = s.eos := rfl
@[simp] theorem endFrame_stopReq : s.endFrame.stopReq = s.stopReq := rfl
@[simp] theorem endFrame_rst : s.endFrame.rst = s.rst := rfl
@[simp] theorem endFrame_evtReady : s.endFrame.evtReady = s.evtReady := rfl
@[simp] theorem endFrame_trace : s.endFrame.trace = s.trace := rfl
@[simp] theorem endFrame_cfg : s.endFrame.cfg = s.cfg := rfl
@[simp] theorem endFrame_op : s.endFrame.op = s.op := rfl
@[simp] theorem endFrame_result : s.endFrame.result = s.result := rfl

@[simp] theorem halt_st : s.halt.st = .halted := rfl
@[simp] theorem halt_m : s.halt.m = 0 := rfl
@[simp] theorem halt_cnt : s.halt.cnt = 0 := rfl
@[simp] theorem halt_n : s.halt.n = 0 := rfl
@[simp] theorem halt_L : s.halt.L = 0 := rfl
@[simp] theorem halt_crcAcc : s.halt.crcAcc = 0 := rfl
@[simp] theorem halt_crcRx : s.halt.crcRx = 0 := rfl
@[simp] theorem halt_buf : s.halt.buf = s.buf := rfl
@[simp] theorem halt_evt : s.halt.evt = s.evt := rfl
@[simp] theorem halt_feed : s.halt.feed = s.feed := rfl
@[simp] theorem halt_cursor : s.halt.cursor = s.cursor := rfl
@[simp] theorem halt_eos : s.halt.eos = s.eos := rfl
@[simp] theorem halt_stopReq : s.halt.stopReq = s.stopReq := rfl
@[simp] theorem halt_rst : s.halt.rst = s.rst := rfl
@[simp] theorem halt_evtReady : s.halt.evtReady = s.evtReady := rfl
@[simp] theorem halt_trace : s.halt.trace = s.trace := rfl
@[simp] theorem halt_cfg : s.halt.cfg = s.cfg := rfl
@[simp] theorem halt_op : s.halt.op = s.op := rfl
@[simp] theorem halt_result : s.halt.result = s.result := rfl

@[simp] theorem resetBlock_st : s.resetBlock.st = .seekingSync := rfl
@[simp] theorem resetBlock_m : s.resetBlock.m = 0 := rfl
@[simp] theorem resetBlock_cnt : s.resetBlock.cnt = 0 := rfl
@[simp] theorem resetBlock_n : s.resetBlock.n = 0 := rfl
@[simp] theorem resetBlock_L : s.resetBlock.L = 0 := rfl
@[simp] theorem resetBlock_crcAcc : s.resetBlock.crcAcc = 0 := rfl
@[simp] theorem resetBlock_crcRx : s.resetBlock.crcRx = 0 := rfl
@[simp] theorem resetBlock_buf : s.resetBlock.buf = s.buf := rfl
@[simp] theorem resetBlock_evt : s.resetBlock.evt = none := rfl
@[simp] theorem resetBlock_feed : s.resetBlock.feed = s.feed := rfl
@[simp] theorem resetBlock_cursor : s.resetBlock.cursor = s.cursor := rfl
@[simp] theorem resetBlock_eos : s.resetBlock.eos = s.eos := rfl
@[simp] theorem resetBlock_stopReq : s.resetBlock.stopReq = s.stopReq := rfl
@[simp] theorem resetBlock_rst : s.resetBlock.rst = s.rst := rfl
@[simp] theorem resetBlock_evtReady : s.resetBlock.evtReady = s.evtReady := rfl
@[simp] theorem resetBlock_trace : s.resetBlock.trace = s.trace := rfl
@[simp] theorem resetBlock_cfg : s.resetBlock.cfg = s.cfg := rfl
@[simp] theorem resetBlock_op : s.resetBlock.op = s.op := rfl
@[simp] theorem resetBlock_result : s.resetBlock.result = s.result := rfl

@[simp] theorem deliver_st (v : Value) : (s.deliver v).st = s.st := rfl
@[simp] theorem deliver_m (v : Value) : (s.deliver v).m = s.m := rfl
@[simp] theorem deliver_cnt (v : Value) : (s.deliver v).cnt = s.cnt := rfl
@[simp] theorem deliver_n (v : Value) : (s.deliver v).n = s.n := rfl
@[simp] theorem deliver_L (v : Value) : (s.deliver v).L = s.L := rfl
@[simp] theorem deliver_crcAcc (v : Value) : (s.deliver v).crcAcc = s.crcAcc := rfl
@[simp] theorem deliver_crcRx (v : Value) : (s.deliver v).crcRx = s.crcRx := rfl
@[simp] theorem deliver_buf (v : Value) : (s.deliver v).buf = s.buf := rfl
@[simp] theorem deliver_evt (v : Value) : (s.deliver v).evt = s.evt := rfl
@[simp] theorem deliver_feed (v : Value) : (s.deliver v).feed = s.feed := rfl
@[simp] theorem deliver_cursor (v : Value) : (s.deliver v).cursor = s.cursor := rfl
@[simp] theorem deliver_eos (v : Value) : (s.deliver v).eos = s.eos := rfl
@[simp] theorem deliver_stopReq (v : Value) : (s.deliver v).stopReq = s.stopReq := rfl
@[simp] theorem deliver_rst (v : Value) : (s.deliver v).rst = s.rst := rfl
@[simp] theorem deliver_evtReady (v : Value) : (s.deliver v).evtReady = s.evtReady := rfl
@[simp] theorem deliver_trace (v : Value) : (s.deliver v).trace = s.trace := rfl
@[simp] theorem deliver_cfg (v : Value) : (s.deliver v).cfg = s.cfg := rfl
@[simp] theorem deliver_op (v : Value) : (s.deliver v).op = s.op := rfl
@[simp] theorem deliver_result (v : Value) : (s.deliver v).result = v := rfl

@[simp] theorem emit_st (e : Event) : (s.emit e).st = s.st := rfl
@[simp] theorem emit_m (e : Event) : (s.emit e).m = s.m := rfl
@[simp] theorem emit_cnt (e : Event) : (s.emit e).cnt = s.cnt := rfl
@[simp] theorem emit_n (e : Event) : (s.emit e).n = s.n := rfl
@[simp] theorem emit_L (e : Event) : (s.emit e).L = s.L := rfl
@[simp] theorem emit_crcAcc (e : Event) : (s.emit e).crcAcc = s.crcAcc := rfl
@[simp] theorem emit_crcRx (e : Event) : (s.emit e).crcRx = s.crcRx := rfl
@[simp] theorem emit_buf (e : Event) : (s.emit e).buf = s.buf := rfl
@[simp] theorem emit_evt (e : Event) : (s.emit e).evt = some ⟨e, s.n⟩ := rfl
@[simp] theorem emit_feed (e : Event) : (s.emit e).feed = s.feed := rfl
@[simp] theorem emit_cursor (e : Event) : (s.emit e).cursor = s.cursor := rfl
@[simp] theorem emit_eos (e : Event) : (s.emit e).eos = s.eos := rfl
@[simp] theorem emit_stopReq (e : Event) : (s.emit e).stopReq = s.stopReq := rfl
@[simp] theorem emit_rst (e : Event) : (s.emit e).rst = s.rst := rfl
@[simp] theorem emit_evtReady (e : Event) : (s.emit e).evtReady = s.evtReady := rfl
@[simp] theorem emit_trace (e : Event) : (s.emit e).trace = s.output := rfl
@[simp] theorem emit_cfg (e : Event) : (s.emit e).cfg = s.cfg := rfl
@[simp] theorem emit_op (e : Event) : (s.emit e).op = s.op := rfl
@[simp] theorem emit_result (e : Event) : (s.emit e).result = s.result := rfl

@[simp] theorem handOver_st : s.handOver.st = s.st := rfl
@[simp] theorem handOver_m : s.handOver.m = s.m := rfl
@[simp] theorem handOver_cnt : s.handOver.cnt = s.cnt := rfl
@[simp] theorem handOver_n : s.handOver.n = s.n := rfl
@[simp] theorem handOver_L : s.handOver.L = s.L := rfl
@[simp] theorem handOver_crcAcc : s.handOver.crcAcc = s.crcAcc := rfl
@[simp] theorem handOver_crcRx : s.handOver.crcRx = s.crcRx := rfl
@[simp] theorem handOver_buf : s.handOver.buf = s.buf := rfl
@[simp] theorem handOver_evt : s.handOver.evt = none := rfl
@[simp] theorem handOver_feed : s.handOver.feed = s.feed := rfl
@[simp] theorem handOver_cursor : s.handOver.cursor = s.cursor := rfl
@[simp] theorem handOver_eos : s.handOver.eos = s.eos := rfl
@[simp] theorem handOver_stopReq : s.handOver.stopReq = s.stopReq := rfl
@[simp] theorem handOver_rst : s.handOver.rst = s.rst := rfl
@[simp] theorem handOver_evtReady : s.handOver.evtReady = s.evtReady := rfl
@[simp] theorem handOver_trace : s.handOver.trace = s.output := rfl
@[simp] theorem handOver_cfg : s.handOver.cfg = s.cfg := rfl
@[simp] theorem handOver_op : s.handOver.op = s.op := rfl
@[simp] theorem handOver_result : s.handOver.result = s.result := rfl

@[simp] theorem preambleComplete_st : s.preambleComplete.st = .readingHeader := rfl
@[simp] theorem preambleComplete_m : s.preambleComplete.m = 0 := rfl
@[simp] theorem preambleComplete_cnt : s.preambleComplete.cnt = 0 := rfl
@[simp] theorem preambleComplete_n : s.preambleComplete.n = 3 := rfl
@[simp] theorem preambleComplete_L : s.preambleComplete.L = s.L := rfl
@[simp] theorem preambleComplete_crcAcc : s.preambleComplete.crcAcc = 0xB34323FF := rfl
@[simp] theorem preambleComplete_crcRx : s.preambleComplete.crcRx = s.crcRx := rfl
@[simp] theorem preambleComplete_buf : s.preambleComplete.buf = ((s.buf.write 0 0xAA).write 1 0x44).write 2 0x12 := rfl
@[simp] theorem preambleComplete_evt : s.preambleComplete.evt = s.evt := rfl
@[simp] theorem preambleComplete_feed : s.preambleComplete.feed = s.feed := rfl
@[simp] theorem preambleComplete_cursor : s.preambleComplete.cursor = s.cursor := rfl
@[simp] theorem preambleComplete_eos : s.preambleComplete.eos = s.eos := rfl
@[simp] theorem preambleComplete_stopReq : s.preambleComplete.stopReq = s.stopReq := rfl
@[simp] theorem preambleComplete_rst : s.preambleComplete.rst = s.rst := rfl
@[simp] theorem preambleComplete_evtReady : s.preambleComplete.evtReady = s.evtReady := rfl
@[simp] theorem preambleComplete_trace : s.preambleComplete.trace = s.trace := rfl
@[simp] theorem preambleComplete_cfg : s.preambleComplete.cfg = s.cfg := rfl
@[simp] theorem preambleComplete_op : s.preambleComplete.op = s.op := rfl
@[simp] theorem preambleComplete_result : s.preambleComplete.result = s.result := rfl

@[simp] theorem headerComplete_st (b : Byte) : (s.headerComplete b).st = s.st := rfl
@[simp] theorem headerComplete_m (b : Byte) : (s.headerComplete b).m = s.m := rfl
@[simp] theorem headerComplete_cnt (b : Byte) : (s.headerComplete b).cnt = s.cnt := rfl
@[simp] theorem headerComplete_n (b : Byte) : (s.headerComplete b).n = 28 := rfl
@[simp] theorem headerComplete_L (b : Byte) : (s.headerComplete b).L = s.L := rfl
@[simp] theorem headerComplete_crcAcc (b : Byte) : (s.headerComplete b).crcAcc = crc32Step s.crcAcc b := rfl
@[simp] theorem headerComplete_crcRx (b : Byte) : (s.headerComplete b).crcRx = s.crcRx := rfl
@[simp] theorem headerComplete_buf (b : Byte) : (s.headerComplete b).buf = s.buf.write 27 b := rfl
@[simp] theorem headerComplete_evt (b : Byte) : (s.headerComplete b).evt = s.evt := rfl
@[simp] theorem headerComplete_feed (b : Byte) : (s.headerComplete b).feed = s.feed := rfl
@[simp] theorem headerComplete_cursor (b : Byte) : (s.headerComplete b).cursor = s.cursor := rfl
@[simp] theorem headerComplete_eos (b : Byte) : (s.headerComplete b).eos = s.eos := rfl
@[simp] theorem headerComplete_stopReq (b : Byte) : (s.headerComplete b).stopReq = s.stopReq := rfl
@[simp] theorem headerComplete_rst (b : Byte) : (s.headerComplete b).rst = s.rst := rfl
@[simp] theorem headerComplete_evtReady (b : Byte) : (s.headerComplete b).evtReady = s.evtReady := rfl
@[simp] theorem headerComplete_trace (b : Byte) : (s.headerComplete b).trace = s.trace := rfl
@[simp] theorem headerComplete_cfg (b : Byte) : (s.headerComplete b).cfg = s.cfg := rfl
@[simp] theorem headerComplete_op (b : Byte) : (s.headerComplete b).op = s.op := rfl
@[simp] theorem headerComplete_result (b : Byte) : (s.headerComplete b).result = s.result := rfl

end Sys2Proof.Laws
end

