-- ==== Sys2Proof/Laws/Memory.lean ====
section
/-! SUPPORT. The frame buffer: a read returns the last write, and every write keeps the canonical form. -/

namespace Sys2Proof.Laws

open Sys2Proof.Machine

theorem find_write_same (mem : Memory) (a : Nat) (v : Byte) : (mem.write a v).find a = some v := by
  induction mem with
  | nil => simp [Memory.write, Memory.find]
  | cons c r ih =>
    obtain ⟨k, w⟩ := c
    simp only [Memory.write]
    split
    · simp [Memory.find]
    · split
      · simp [Memory.find]
      · rename_i h; simp [Memory.find, h, ih]

theorem find_write_other (mem : Memory) {a b : Nat} (v : Byte) (h : b ≠ a) :
    (mem.write a v).find b = mem.find b := by
  induction mem with
  | nil => simp [Memory.write, Memory.find, Ne.symm h]
  | cons c r ih =>
    obtain ⟨k, w⟩ := c
    simp only [Memory.write]
    split
    · simp [Memory.find, Ne.symm h]
    · split
      · rename_i hk; subst hk; simp [Memory.find, Ne.symm h]
      · simp [Memory.find, ih]

/-- The addresses a write leaves listed: the ones before it and its own. -/
theorem mem_keys_write (mem : Memory) (a : Nat) (v : Byte) (x : Nat)
    (h : x ∈ (mem.write a v).map Prod.fst) : x = a ∨ x ∈ mem.map Prod.fst := by
  induction mem with
  | nil => simpa [Memory.write] using h
  | cons c r ih =>
    obtain ⟨k, w⟩ := c
    simp only [Memory.write] at h
    split at h
    · simpa using h
    · split at h
      · simp only [List.map_cons, List.mem_cons] at h ⊢; tauto
      · simp only [List.map_cons, List.mem_cons] at h ⊢; tauto

/-- A write keeps the canonical form. -/
theorem write_wf (mem : Memory) (a : Nat) (v : Byte) (h : Memory.wf mem) : Memory.wf (mem.write a v) := by
  induction mem with
  | nil => simp [Memory.write, Memory.wf]
  | cons c r ih =>
    obtain ⟨k, w⟩ := c
    simp only [Memory.wf, List.map_cons, List.pairwise_cons] at h
    obtain ⟨hk, hr⟩ := h
    simp only [Memory.write]
    split
    · rename_i hlt
      simp only [Memory.wf, List.map_cons, List.pairwise_cons, List.mem_cons]
      exact ⟨fun x hx => hx.elim (fun e => e ▸ hlt) fun hx => lt_trans hlt (hk x hx), hk, hr⟩
    · split
      · rename_i he
        simp only [Memory.wf, List.map_cons, List.pairwise_cons]
        exact ⟨fun x hx => he ▸ hk x hx, hr⟩
      · rename_i hlt hne
        simp only [Memory.wf, List.map_cons, List.pairwise_cons]
        refine ⟨fun x hx => ?_, ih hr⟩
        rcases mem_keys_write r a v x hx with rfl | hx
        · omega
        · exact hk x hx

theorem reset_buf_wf : Memory.wf State.reset.buf := by simp [State.reset, Memory.wf]

/-- Reading a byte depends on the buffer alone. -/
theorem readByte_congr {s t : State} (h : t.buf = s.buf) (a : Nat) : t.readByte a = s.readByte a := by
  simp [State.readByte, h]

theorem readBytes_congr {s t : State} (h : t.buf = s.buf) (a k : Nat) : t.readBytes a k = s.readBytes a k := by
  induction k generalizing a with
  | zero => rfl
  | succ k ih => simp [State.readBytes, readByte_congr h, ih]

theorem memRead_congr {s t : State} (h : t.buf = s.buf) (a w : Nat) : t.memRead a w = s.memRead a w := by
  simp [State.memRead, readBytes_congr h]

theorem readByte_write_same {s t : State} {a : Nat} {v : Byte} (h : t.buf = s.buf.write a v) : t.readByte a = v := by
  simp [State.readByte, h, find_write_same]

theorem readByte_write_other {s t : State} {a b : Nat} {v : Byte} (h : t.buf = s.buf.write a v) (hb : b ≠ a) :
    t.readByte b = s.readByte b := by
  simp [State.readByte, h, find_write_other _ v hb]

@[simp] theorem length_readBytes (s : State) (a k : Nat) : (s.readBytes a k).length = k := by
  induction k generalizing a with
  | zero => rfl
  | succ k ih => simp [State.readBytes, ih]

theorem readBytes_add (s : State) (a j k : Nat) : s.readBytes a (j + k) = s.readBytes a j ++ s.readBytes (a + j) k := by
  induction j generalizing a with
  | zero => simp [State.readBytes]
  | succ j ih =>
    have h : j + 1 + k = (j + k) + 1 := by omega
    have h' : a + 1 + j = a + (j + 1) := by omega
    rw [h]
    simp [State.readBytes, ih, h']

/-- A write at or past the end of a range, or before its start, leaves the range's bytes. -/
theorem readBytes_write_outside {s t : State} {p : Nat} {v : Byte} (h : t.buf = s.buf.write p v) (a k : Nat)
    (hp : p < a ∨ a + k ≤ p) : t.readBytes a k = s.readBytes a k := by
  induction k generalizing a with
  | zero => rfl
  | succ k ih =>
    simp only [State.readBytes]
    rw [readByte_write_other h (by omega), ih (a + 1) (by omega)]

/-- A write just past a range adds its byte to the range. -/
theorem readBytes_write_end {s t : State} {v : Byte} (a k : Nat) (h : t.buf = s.buf.write (a + k) v) :
    t.readBytes a (k + 1) = s.readBytes a k ++ [v] := by
  rw [readBytes_add, readBytes_write_outside h a k (by omega)]
  simp [State.readBytes, readByte_write_same h]

/-- Fields of a byte range: bytes `o .. o+w-1` of `buf[a..]` are `buf[a+o ..]`. -/
theorem take_drop_readBytes (s : State) (a k o w : Nat) (h : o + w ≤ k) :
    ((s.readBytes a k).drop o).take w = s.readBytes (a + o) w := by
  obtain ⟨r, rfl⟩ : ∃ r, k = o + (w + r) := ⟨k - o - w, by omega⟩
  rw [readBytes_add, readBytes_add]
  simp

end Sys2Proof.Laws
end

