-- ==== Sys2Proof/Laws/Ops.lean ====
section
/-! SUPPORT. What each shared operation can do, said once: cite these and do not unfold the operation. -/

namespace Sys2Proof.Laws

open Sys2Proof.Machine

/-! ### The output trace -/

/-- Emitting appends to the output trace (00_scope.md R17). -/
@[simp] theorem output_emit (s : State) (e : Event) : (s.emit e).output = s.output ++ [e] := by
  simp [State.output, State.emit]

/-- The hand-over leaves the output trace. -/
@[simp] theorem output_handOver (s : State) : s.handOver.output = s.output := by
  simp [State.output, State.handOver]

@[simp] theorem output_endFrame (s : State) : s.endFrame.output = s.output := rfl

/-! ### Storing, dropping, dispatching -/

/-- A store at an address `buf` has. -/
theorem store_inSpace {s : State} {a : Nat} (v : Byte) (h : s.inSpace a = true) : s.store a v = s.memWrite a v := by
  simp [State.store, h]

/-- A store past the end of `buf`. -/
theorem store_outside {s : State} {a : Nat} (v : Byte) (h : s.inSpace a = false) : s.store a v = s := by
  simp [State.store, h]

/-- A store leaves every other address, whether or not `buf` has a byte at its own. -/
theorem readByte_store_other (s : State) {a c : Nat} (v : Byte) (h : c ≠ a) : (s.store a v).readByte c = s.readByte c := by
  unfold State.store
  split
  · exact readByte_write_other rfl h
  · rfl

/-- A store keeps the canonical form. -/
theorem store_wf (s : State) (a : Nat) (v : Byte) (h : Memory.wf s.buf) : Memory.wf (s.store a v).buf := by
  unfold State.store
  split
  · exact write_wf _ _ _ h
  · exact h

/-- The one next state of `raise Drop` (43_frame_fsm.md R262). -/
theorem raiseDrop_next {s t : State} {reason : Reason} (h : raiseDrop reason s = .next t) :
    t = (s.emit (s.droppedEvent reason)).endFrame := by
  cases h; rfl

/-- The two ways `decode_payload` can go (42_payload_decoder.md R183): a body or a drop. -/
theorem dispatchPayload_cases (messageId len : Half) (s : State) (use : Body → Result) :
    (∃ b, dispatchPayload messageId len s use = use b) ∨
    dispatchPayload messageId len s use = raiseDrop .payloadSizeMismatch s := by
  unfold dispatchPayload
  repeat' split
  all_goals first | exact .inl ⟨_, rfl⟩ | exact .inr rfl

/-! ### The step -/

/-- With nothing on the operation port a step is the block's. -/
theorem step_block {s : State} (h : s.op = none) : step s = s.sample.advance := by simp [step, h]

/-- Everything a step of the block can do. -/
theorem advance_cases (s : State) :
    (∃ i, s.select = some i ∧ (s.rst = true ∨ s.evt = none) ∧ s.advance = exec i (s.consume i)) ∨
    (s.select = none ∧ s.rst = false ∧ s.evt = none ∧ s.advance = .next s) ∨
    (∃ o, s.evt = some o ∧ s.rst = false ∧ s.evtReady = true ∧ s.advance = .next s.handOver) ∨
    (∃ o, s.evt = some o ∧ s.rst = false ∧ s.evtReady = false ∧ s.advance = .next s) := by
  unfold State.advance State.runSelected
  rcases hr : s.rst with _ | _ <;> rcases he : s.evt with _ | o
  · rcases hs : s.select with _ | i <;> simp
  · rcases hy : s.evtReady with _ | _ <;> simp
  · rcases hs : s.select with _ | i
    · simp [State.select, hr] at hs
    · simp
  · rcases hs : s.select with _ | i
    · simp [State.select, hr] at hs
    · simp

/-- Sampling changes the feed and the levels only. -/
theorem sample_frame (s : State) :
    s.sample = { s with feed := s.sample.feed, eos := s.sample.eos, stopReq := s.sample.stopReq, rst := s.sample.rst,
                        evtReady := s.sample.evtReady } := by
  unfold State.sample
  split <;> rfl

/-- Consuming changes the feed and the cursor only. -/
theorem consume_frame (i : Instr) (s : State) :
    s.consume i = { s with feed := (s.consume i).feed, cursor := (s.consume i).cursor } := by
  unfold State.consume
  split <;> rfl

end Sys2Proof.Laws
end

