-- ==== Sys2Proof/Laws/Crc.lean ====
section
/-! SUPPORT. The CRC functions' small laws. -/

namespace Sys2Proof.Laws

open Sys2Proof.Machine

@[simp] theorem computeCrc32_nil : computeCrc32 [] = 0 := rfl

/-- Absorbing one more byte is one more step of the fold (40_crc_engine.md R138). -/
theorem computeCrc32_snoc (d : List Byte) (b : Byte) : computeCrc32 (d ++ [b]) = crc32Step (computeCrc32 d) b := by
  simp [computeCrc32]

/-- The preamble's CRC is the constant of 43_frame_fsm.md R244. -/
theorem computeCrc32_preamble : computeCrc32 [0xAA, 0x44, 0x12] = 0xB34323FF := by decide

/-- `crc_bit` is linear over XOR (40_crc_engine.md R139). -/
theorem crcBit_xor (x y : Word) : crcBit (x ^^^ y) = crcBit x ^^^ crcBit y := by
  simp only [crcBit, BitVec.getLsbD_xor]
  rcases hx : x.getLsbD 0 with _ | _ <;> rcases hy : y.getLsbD 0 with _ | _ <;>
    simp [BitVec.ushiftRight_xor_distrib] <;> (ext i; simp) <;> grind

end Sys2Proof.Laws
end

