-- ==== Sys2Proof/Laws/Frame.lean ====
section
/-! SUPPORT. What any operation can do to the state, said once; and how the parts of the invariant move with a stored byte. -/

namespace Sys2Proof.Laws

open Sys2Proof.Machine

/-! ### Every operation -/

/-- Only the frame registers, `buf` and the result port differ. -/
def Within (s t : State) : Prop :=
  t = { s with st := t.st, m := t.m, cnt := t.cnt, n := t.n, L := t.L, crcAcc := t.crcAcc, crcRx := t.crcRx
               buf := t.buf, result := t.result }

theorem Within.refl (s : State) : Within s s := rfl

/-- One event is emitted and the frame registers are cleared. -/
def Ends (s t : State) (e : Event) : Prop := ∃ u, Within s u ∧ t = (u.emit e).endFrame

theorem ends_of_raiseDrop {s u t : State} {reason : Reason} (hu : Within s u) (h : raiseDrop reason u = .next t) :
    ∃ e, Ends s t e := ⟨_, u, hu, raiseDrop_next h⟩

/-- An operation that completes stays within the frame in progress, ends it with an event, or resets the block. -/
theorem exec_cases (i : Instr) (s t : State) (h : exec i s = .next t) :
    Within s t ∨ (∃ e, Ends s t e) ∨ (i = .fsmReset ∧ t = s.resetBlock) := by
  cases i
  case fsmReset => cases h; exact .inr (.inr ⟨rfl, rfl⟩)
  case fsmDrop r => exact .inr (.inl (ends_of_raiseDrop (Within.refl s) h))
  case fsmHdrEos =>
    simp only [exec, execFsmHdrEos] at h
    split at h
    · exact .inr (.inl (ends_of_raiseDrop (Within.refl s) h))
    · cases h; exact .inl rfl
  case fsmPldEos =>
    simp only [exec, execFsmPldEos] at h
    split at h
    · exact .inr (.inl (ends_of_raiseDrop (Within.refl s) h))
    · cases h; exact .inl rfl
  case fsmCrcEos =>
    simp only [exec, execFsmCrcEos] at h
    split at h
    · exact .inr (.inl (ends_of_raiseDrop (Within.refl s) h))
    · cases h; exact .inl rfl
  case fsmHdrLast b =>
    simp only [exec, execFsmHdrLast] at h
    split at h
    · split at h
      · cases h; exact .inl rfl
      · exact .inr (.inl (ends_of_raiseDrop (by rfl) h))
    · cases h; exact .inl rfl
  case fsmPld b =>
    simp only [exec, execFsmPld] at h
    split at h
    · split at h <;> (cases h; exact .inl (by simp [Within]))
    · cases h; exact .inl rfl
  case fsmCrc b =>
    simp only [exec, execFsmCrc] at h
    split at h
    · cases h; exact .inl (by simp [Within])
    · cases h; exact .inl rfl
  case fsmCrcLast b =>
    simp only [exec, execFsmCrcLast] at h
    split at h
    · split at h
      · cases h; exact .inl (by simp [Within])
      · exact .inr (.inl (ends_of_raiseDrop (by simp [Within]) h))
    · cases h; exact .inl rfl
  case fsmDisp =>
    simp only [exec, execFsmDisp] at h
    split at h
    · rcases dispatchPayload_cases s.header.f1 s.L s
        fun body => .next (s.emit (.frame s.header body)).endFrame with ⟨b, hb⟩ | hb
      · rw [hb] at h; cases h; exact .inr (.inl ⟨_, s, rfl, rfl⟩)
      · rw [hb] at h; exact .inr (.inl (ends_of_raiseDrop (Within.refl s) h))
    · cases h; exact .inl rfl
  case pldDispatch id l =>
    simp only [exec, execPldDispatch] at h
    rcases dispatchPayload_cases id l s fun b => .next (s.deliver (.body b)) with ⟨b, hb⟩ | hb
    · rw [hb] at h; cases h; exact .inl rfl
    · rw [hb] at h; exact .inr (.inl (ends_of_raiseDrop (Within.refl s) h))
  case fsmSeek b =>
    simp only [exec, execFsmSeek] at h
    split at h
    · split at h <;> (cases h; exact .inl rfl)
    · cases h; exact .inl rfl
  all_goals
    first
    | (cases h; exact .inl rfl)
    | (simp only [exec, execSync, execFsmSeekEos, execFsmStop, execFsmHdr] at h
       split at h <;> (cases h; exact .inl rfl))

/-! ### The parts of the invariant -/

/-- A one-byte read is the byte. -/
theorem memRead_one (s : State) (a : Nat) : s.memRead a 1 = s.readByte a := by
  apply BitVec.eq_of_toNat_eq
  have := (s.readByte a).isLt
  simp [State.memRead, State.readBytes, le]

/-- The invariant depends on neither the environment nor the ports of a pending event. -/
theorem blockInv_congr {s t : State}
    (h : t = { s with feed := t.feed, cursor := t.cursor, eos := t.eos, stopReq := t.stopReq, rst := t.rst
                      evtReady := t.evtReady, trace := t.trace, evt := t.evt })
    (hi : s.blockInv) : t.blockInv := by
  obtain ⟨h1, h2, h3⟩ := hi
  have hb : t.buf = s.buf := by rw [h]
  have hs : t.st = s.st := by rw [h]
  have hm : t.m = s.m := by rw [h]
  have hc : t.cnt = s.cnt := by rw [h]
  have hn : t.n = s.n := by rw [h]
  have hL : t.L = s.L := by rw [h]
  have ha : t.crcAcc = s.crcAcc := by rw [h]
  have hr : t.crcRx = s.crcRx := by rw [h]
  have hg : t.cfg = s.cfg := by rw [h]
  have ho : t.op = s.op := by rw [h]
  refine ⟨ho ▸ h1, hb ▸ h2, ?_⟩
  unfold State.sectionInv at h3 ⊢
  simp only [State.framesClear, State.headerChecked, State.absorbed, State.written, readBytes_congr hb,
    memRead_congr hb, hb, hs, hm, hc, hn, hL, ha, hr, hg] at h3 ⊢
  exact h3

theorem written_write {s t : State} {a : Nat} {v : Byte} (h : t.buf = s.buf.write a v) (hw : s.written a) :
    t.written (a + 1) := by
  intro k hk
  rw [h]
  by_cases e : k = a
  · subst e; rw [find_write_same]; rfl
  · rw [find_write_other _ _ e]; exact hw k (by omega)

/-- Storing and absorbing the next byte. -/
theorem absorbed_write {s t : State} {a : Nat} {v : Byte} (h : t.buf = s.buf.write a v)
    (hc : t.crcAcc = crc32Step s.crcAcc v) (hw : s.absorbed a) : t.absorbed (a + 1) := by
  refine ⟨written_write h hw.1, ?_⟩
  have h' : t.buf = s.buf.write (0 + a) v := by simpa using h
  rw [readBytes_write_end 0 a h', computeCrc32_snoc, hc, hw.2]

/-- Storing a byte behind the absorbed ones. -/
theorem absorbed_keep {s t : State} {a k : Nat} {v : Byte} (h : t.buf = s.buf.write a v) (hc : t.crcAcc = s.crcAcc)
    (hk : k ≤ a) (hw : s.absorbed k) : t.absorbed k := by
  refine ⟨fun j hj => ?_, ?_⟩
  · rw [h, find_write_other _ _ (by omega)]; exact hw.1 j hj
  · rw [readBytes_write_outside h 0 k (by omega), hc, hw.2]

/-- Storing a byte behind the header. -/
theorem headerChecked_keep {s t : State} {a : Nat} {v : Byte} (h : t.buf = s.buf.write a v) (hL : t.L = s.L)
    (hc : t.cfg = s.cfg) (ha : 28 ≤ a) (hw : s.headerChecked) : t.headerChecked := by
  refine ⟨by rw [hL, hc]; exact hw.1, ?_, ?_⟩
  · rw [hL, hw.2.1]; simp only [State.memRead]; rw [readBytes_write_outside h 8 2 (by omega)]
  · rw [← hw.2.2]; simp only [State.memRead]; rw [readBytes_write_outside h 3 1 (by omega)]

theorem endFrame_blockInv (s : State) (ho : s.op = none) (hw : Memory.wf s.buf) : s.endFrame.blockInv := by
  refine ⟨ho, hw, ?_⟩
  simp [State.sectionInv, State.endFrame, State.frameClear, State.framesClear]

theorem halt_blockInv (s : State) (ho : s.op = none) (hw : Memory.wf s.buf) : s.halt.blockInv := by
  refine ⟨ho, hw, ?_⟩
  simp [State.sectionInv, State.halt, State.frameClear, State.framesClear]

theorem raiseDrop_blockInv {s t : State} {reason : Reason} (h : raiseDrop reason s = .next t) (ho : s.op = none)
    (hw : Memory.wf s.buf) : t.blockInv := by
  rw [raiseDrop_next h]; exact endFrame_blockInv _ ho hw

end Sys2Proof.Laws
end

