-- ==== Sys2Proof/Laws/PerInstr.lean ====
section
/-! SUPPORT. Statements about every operation as encoded: its word carries its row's pattern (30_encoding.md R120). -/

namespace Sys2Proof.Laws.TableRow

/-- The word of an operation, under its row's mask, is its row's match. -/
def Statement (i : Instr) : Prop := le (encode i) &&& i.row.mask = i.row.pattern

/-- The low three bits of an FSM word are its state code. -/
theorem fsm_low3 (c : Nat) (hc : c < 8) (b : Byte) (bs : List Byte) (hb : b.toNat % 8 = c) :
    le (b :: bs) &&& 7 = c := by
  rw [show (7 : Nat) = 2 ^ 3 - 1 from rfl, Nat.and_two_pow_sub_one_eq_mod]
  simp only [le_cons]
  omega

theorem sync : Statement .sync :=
  by unfold Statement; decide

theorem pldBestpos : Statement .pldBestpos :=
  by unfold Statement; decide

theorem pldBestvel : Statement .pldBestvel :=
  by unfold Statement; decide

theorem pldUnrec (id : Half) : Statement (.pldUnrec id) :=
  by simp [Statement, Instr.row]

theorem fsmSeek (b : Byte) : Statement (.fsmSeek b) :=
  fsm_low3 0 (by decide) _ _ (by decide)

theorem fsmSeekEos : Statement .fsmSeekEos :=
  by unfold Statement; decide

theorem fsmStop : Statement .fsmStop :=
  by unfold Statement; decide

theorem fsmHdr (b : Byte) : Statement (.fsmHdr b) :=
  fsm_low3 1 (by decide) _ _ (by decide)

theorem fsmHdrLast (b : Byte) : Statement (.fsmHdrLast b) :=
  fsm_low3 1 (by decide) _ _ (by decide)

theorem fsmHdrEos : Statement .fsmHdrEos :=
  by unfold Statement; decide

theorem fsmPld (b : Byte) : Statement (.fsmPld b) :=
  fsm_low3 2 (by decide) _ _ (by decide)

theorem fsmPldEos : Statement .fsmPldEos :=
  by unfold Statement; decide

theorem fsmCrc (b : Byte) : Statement (.fsmCrc b) :=
  fsm_low3 3 (by decide) _ _ (by decide)

theorem fsmCrcLast (b : Byte) : Statement (.fsmCrcLast b) :=
  fsm_low3 3 (by decide) _ _ (by decide)

theorem fsmCrcEos : Statement .fsmCrcEos :=
  by unfold Statement; decide

theorem fsmDisp : Statement .fsmDisp :=
  by unfold Statement; decide

theorem fsmHalt : Statement .fsmHalt :=
  by unfold Statement; decide

theorem fsmReset : Statement .fsmReset :=
  by unfold Statement; decide

theorem fsmDrop (reason : Reason) : Statement (.fsmDrop reason) :=
  by simp [Statement, Instr.row]

theorem crcBit (v : Word) : Statement (.crcBit v) :=
  by simp [Statement, Instr.row]

theorem crcLoop8 (v : Word) : Statement (.crcLoop8 v) :=
  by simp [Statement, Instr.row]

theorem crcStep (acc : Word) (b : Byte) : Statement (.crcStep acc b) :=
  by simp [Statement, Instr.row]

theorem crcCompute (data : List Byte) : Statement (.crcCompute data) :=
  by simp [Statement, Instr.row]

theorem crcVerify (data : List Byte) (received : Word) : Statement (.crcVerify data received) :=
  by simp [Statement, Instr.row]

theorem crcClr : Statement .crcClr :=
  by unfold Statement; decide

theorem crcAbsorb (b : Byte) : Statement (.crcAbsorb b) :=
  by simp [Statement, Instr.row]

theorem extU8 (a : Addr) : Statement (.extU8 a) :=
  by simp [Statement, Instr.row]

theorem extI8 (a : Addr) : Statement (.extI8 a) :=
  by simp [Statement, Instr.row]

theorem extU16 (a : Addr) : Statement (.extU16 a) :=
  by simp [Statement, Instr.row]

theorem extU32 (a : Addr) : Statement (.extU32 a) :=
  by simp [Statement, Instr.row]

theorem extI32 (a : Addr) : Statement (.extI32 a) :=
  by simp [Statement, Instr.row]

theorem extF32 (a : Addr) : Statement (.extF32 a) :=
  by simp [Statement, Instr.row]

theorem extF64 (a : Addr) : Statement (.extF64 a) :=
  by simp [Statement, Instr.row]

theorem hdrParse (h : List Byte) : Statement (.hdrParse h) :=
  by simp [Statement, Instr.row]

theorem hdrValidate (headerLength : Byte) (consumedLen : Nat) : Statement (.hdrValidate headerLength consumedLen) :=
  by simp [Statement, Instr.row]

theorem pldDispatch (messageId : Half) (len : Half) : Statement (.pldDispatch messageId len) :=
  by simp [Statement, Instr.row]

theorem pldFixq (solStatus posType : Word) : Statement (.pldFixq solStatus posType) :=
  by simp [Statement, Instr.row]

theorem pldCov (latStd lonStd hgtStd : Word) : Statement (.pldCov latStd lonStd hgtStd) :=
  by simp [Statement, Instr.row]

theorem pldSats (svs solnSvs : Byte) : Statement (.pldSats svs solnSvs) :=
  by simp [Statement, Instr.row]

theorem pldVx (h a : Dword) : Statement (.pldVx h a) :=
  by simp [Statement, Instr.row]

theorem pldVy (h a : Dword) : Statement (.pldVy h a) :=
  by simp [Statement, Instr.row]

end Sys2Proof.Laws.TableRow
end

