-- ==== Sys2Proof/Machine/Reference.lean ====
section
/-! DEFINITION. The reference choice for two of the four free arithmetic functions (92_eei_decisions.md D17): binary64
multiplication rounded to nearest, ties to even, and degrees to radians as a product. No step calls it: FMUL and RADIANS stay
free in the machine (log 2, log 20). The format is the spec's own general-knowledge passage (42_payload_decoder.md R182). -/

namespace Sys2Proof.Machine

/-- Exponent field, bits 62:52 (R182). -/
def f64Exp (x : Dword) : Nat := x.toNat / 2 ^ 52 % 2048

/-- Fraction field, bits 51:0 (R182). -/
def f64Frac (x : Dword) : Nat := x.toNat % 2 ^ 52

/-- A NaN: exponent all ones, fraction not zero (R182). -/
def f64IsNan (x : Dword) : Bool := f64Exp x == 2047 && f64Frac x != 0

/-- An infinity: exponent all ones, fraction zero (R182). -/
def f64IsInf (x : Dword) : Bool := f64Exp x == 2047 && f64Frac x == 0

/-- The significand with its leading bit; zero and subnormals have none (R182). -/
def f64Sig (x : Dword) : Nat := if f64Exp x = 0 then f64Frac x else f64Frac x + 2 ^ 52

/-- The exponent field with subnormals moved to 1, so that the value is `sig · 2^(exp − 1075)`. -/
def f64Scale (x : Dword) : Nat := max (f64Exp x) 1

/-- `p / 2^k` rounded to nearest, ties to even. -/
def roundShift (p k : Nat) : Nat :=
  let q := p / 2 ^ k
  let r := p % 2 ^ k
  if 2 * r > 2 ^ k ∨ (2 * r = 2 ^ k ∧ q % 2 = 1) then q + 1 else q

/-- The magnitude bits of the binary64 nearest to `p · 2^(scale − 2150)`, infinity when it is too large. -/
def f64Round (p scale : Nat) : Nat :=
  let e := scale + (Nat.log2 p + 1) - 1129
  let sig := if scale ≤ e + 1076 then roundShift p (e + 1076 - scale) else p * 2 ^ (scale - (e + 1076))
  min (e * 2 ^ 52 + sig) (2047 * 2 ^ 52)

/-- Reference FMUL (D17). A NaN result is the one quiet NaN 0x7FF8000000000000 (log 20). -/
def referenceFmul (x y : Dword) : Dword :=
  let sign : Nat := if x.getLsbD 63 == y.getLsbD 63 then 0 else 2 ^ 63
  if f64IsNan x || f64IsNan y then 0x7FF8000000000000
  else if f64IsInf x || f64IsInf y then
    if f64Sig x == 0 && f64Exp x == 0 || f64Sig y == 0 && f64Exp y == 0 then 0x7FF8000000000000
    else BitVec.ofNat 64 (sign + 2047 * 2 ^ 52)
  else if f64Sig x * f64Sig y = 0 then BitVec.ofNat 64 sign
  else BitVec.ofNat 64 (sign + f64Round (f64Sig x * f64Sig y) (f64Scale x + f64Scale y))

/-- The binary64 nearest π/180 (42_payload_decoder.md R231). -/
def degree : Dword := 0x3F91DF46A2529D39

/-- Reference RADIANS (D17, R231). -/
def referenceRadians (a : Dword) : Dword := referenceFmul a degree

end Sys2Proof.Machine
end

