-- ==== Sys2Proof/Tests/Slice0.lean ====
section
/-! SUPPORT. Tests of the model: expected values are those of 95_test_vectors.md and the encodings of 30_encoding.md, each named
beside its test. The second half shows, for every obligation with hypotheses, concrete states and operands that meet them. -/

namespace Sys2Proof.Tests

open Sys2Proof.Machine

/-! ### Helpers -/

/-- Bytes stored from an address upward. -/
def bytesAt : Nat → List Byte → Memory
  | _, [] => []
  | a, b :: bs => (a, b) :: bytesAt (a + 1) bs

def nextOf : Result → Option State
  | .next s => some s
  | .fault _ => none
  | .refused _ => none

/-- The reset state with bytes in `buf` from an address upward. -/
def holding (a : Nat) (bs : List Byte) : State := { State.reset with buf := bytesAt a bs }

/-- The reset state with the registers of a vector's tuple and the frame's bytes from address 0. -/
def inState (st : SeqState) (m : BitVec 2) (cnt : BitVec 16) (n : BitVec 17) (len : Half) (acc rx : Word)
    (bs : List Byte) : State :=
  { holding 0 bs with st := st, m := m, cnt := cnt, n := n, L := len, crcAcc := acc, crcRx := rx }

/-- The tuple of 95_test_vectors.md. -/
structure Regs where
  st     : SeqState
  m      : BitVec 2
  cnt    : BitVec 16
  n      : BitVec 17
  L      : Half
  crcAcc : Word
  crcRx  : Word
deriving DecidableEq, Repr

def regs (s : State) : Regs := ⟨s.st, s.m, s.cnt, s.n, s.L, s.crcAcc, s.crcRx⟩

/-- The registers after an operation. -/
def regsAfter (i : Instr) (s : State) : Option Regs := (nextOf (exec i s)).map regs

/-- The event an operation leaves on the port. -/
def eventAfter (i : Instr) (s : State) : Option Event :=
  ((nextOf (exec i s)).bind State.evt).map Offer.event

/-- What an operation delivers on the result port. -/
def resultOf (i : Instr) (s : State) : Option Value := (nextOf (exec i s)).map State.result

/-- The register tuple after reset. -/
def cleared : Regs := ⟨.seekingSync, 0, 0, 0, 0, 0, 0⟩

/-- Frame A, 95_test_vectors.md section 3.1. -/
def headA : List Byte :=
  [0xAA, 0x44, 0x12, 0x1C, 0x2A, 0x00, 0xFF, 0x20, 0x48, 0x00, 0x8E, 0x08, 0x7B, 0xB4] ++
  [0x02, 0x01, 0x00, 0x70, 0x99, 0x14, 0x40, 0x00, 0x00, 0x02, 0xCD, 0xAB, 0x39, 0x30]

def payloadA : List Byte :=
  [0x00, 0x00, 0x00, 0x00, 0x32, 0x00, 0x00, 0x00, 0x00, 0x00, 0x00, 0x00, 0x00, 0xA0, 0x49, 0x40] ++
  [0x00, 0x00, 0x00, 0x00, 0x00, 0xA0, 0x5C, 0xC0, 0x00, 0x00, 0x00, 0x00, 0x00, 0xA2, 0x90, 0x40] ++
  [0x00, 0x00, 0x82, 0xC1, 0x3D, 0x00, 0x00, 0x00, 0x00, 0x00, 0x00, 0x3F, 0x00, 0x00, 0x80, 0x3E] ++
  [0x00, 0x00, 0xC0, 0x3F, 0x41, 0x41, 0x41, 0x41, 0x00, 0x00, 0x00, 0x40, 0x00, 0x00, 0x00, 0x00] ++
  [0x0C, 0x0A, 0x09, 0x08, 0x00, 0x01, 0x02, 0x03]

/-- Frame B's payload. -/
def payloadB : List Byte :=
  [0x00, 0x00, 0x00, 0x00, 0x32, 0x00, 0x00, 0x00, 0x00, 0x00, 0x00, 0x00, 0x00, 0x00, 0x00, 0x00] ++
  [0x00, 0x00, 0x00, 0x00, 0x00, 0x00, 0x24, 0x40, 0x00, 0x00, 0x00, 0x00, 0x00, 0x80, 0x56, 0x40] ++
  [0x00, 0x00, 0x00, 0x00, 0x00, 0x00, 0xE0, 0xBF, 0x00, 0x00, 0x00, 0x00]

/-- Frame C without its checksum. -/
def headC : List Byte := [0xAA, 0x44, 0x12, 0x1C, 0x07] ++ List.replicate 23 0

/-- Frame D's header. -/
def headD : List Byte := [0xAA, 0x44, 0x12, 0x1C, 0x07, 0x00, 0x00, 0x00, 0x02] ++ List.replicate 19 0

/-- Frame E's header. -/
def headE : List Byte := [0xAA, 0x44, 0x12, 0x1C, 0x2A, 0x00, 0x00, 0x00, 0x47] ++ List.replicate 19 0

/-- T-HDR-1. -/
def headerA : Header where
  f0 := 28
  f1 := 42
  f2 := -1
  f3 := 32
  f4 := 72
  f5 := 2190
  f6 := 123
  f7 := 180
  f8 := 258
  f9 := 345600000
  f10 := 0x02000040
  f11 := 43981
  f12 := 12345

/-- T-PLD-1. -/
def recordA : PositionFix where
  solStatus := 0
  posType := 50
  lat := 0x4049A00000000000
  lon := 0xC05CA00000000000
  hgt := 0x4090A20000000000
  undulation := 0xC1820000
  datumId := 61
  latStd := 0x3F000000
  lonStd := 0x3E800000
  hgtStd := 0x3FC00000
  baseId := 1094795585
  diffAge := 0x40000000
  solAge := 0
  svs := 12
  solnSvs := 10
  rsv0 := 9
  rsv1 := 8
  rsv2 := 0
  rsv3 := 1
  rsv4 := 2
  rsv5 := 3
  fixQuality := .gpsFix
  covType := .diagonalKnown
  varLat := 0x3F000000
  varLon := 0x3E800000
  varHgt := 0x3FC00000
  satsVisible := 12
  satsUsed := 10

/-! ### WellFormed: one ill-formed term for each check -/

theorem test_wellFormed_unrec_42 : (Instr.pldUnrec 42).wellFormed = false := by decide
theorem test_wellFormed_unrec_99 : (Instr.pldUnrec 99).wellFormed = false := by decide
theorem test_wellFormed_extractors :
    ((Instr.extU8 65567).wellFormed, (Instr.extI8 65567).wellFormed, (Instr.extU16 65567).wellFormed,
      (Instr.extU32 65567).wellFormed, (Instr.extI32 65567).wellFormed, (Instr.extF32 65567).wellFormed,
      (Instr.extF64 65567).wellFormed) = (false, false, false, false, false, false, false) := by decide
theorem test_wellFormed_hdrParse : (Instr.hdrParse (List.replicate 26 0)).wellFormed = false := by decide
theorem test_wellFormed_hdrValidate : (Instr.hdrValidate 28 4294967296).wellFormed = false := by decide
/-- A sequence of 2^32 bytes. -/
theorem test_wellFormed_crcData (data : List Byte) (h : data.length = 4294967296) (rx : Word) :
    (Instr.crcCompute data).wellFormed = false ∧ (Instr.crcVerify data rx).wellFormed = false := by
  constructor <;> simp only [Instr.wellFormed, fitsCount, h] <;> rfl

/-! ### Decoding: words written out from 30_encoding.md R91, R98, R107, R120 and log 9 -/

theorem test_decode_wire :
    decode .wireSync [0xAA, 0x44, 0x12] = .ok .sync [] ∧ decode .wireSync [0x12, 0x44, 0xAA] = .reject .notThePreamble ∧
    decode .wireMsgid [0x2A, 0x00] = .ok .pldBestpos [] ∧ decode .wireMsgid [0x63, 0x00] = .ok .pldBestvel [] ∧
    decode .wireMsgid [0x2A, 0x01] = .ok (.pldUnrec 298) [] ∧ decode .wireMsgid [0x2A] = .reject .tooShort := by decide

/-- State code in bits 2..0; input kind in bits 5..3; the LAST bit 6. -/
theorem test_decode_fsm :
    decode .fsm [0b00000000, 0x5A] = .ok (.fsmSeek 0x5A) [] ∧ decode .fsm [0b00001000] = .ok .fsmSeekEos [] ∧
    decode .fsm [0b00010000] = .ok .fsmStop [] ∧ decode .fsm [0b00000001, 0x1C] = .ok (.fsmHdr 0x1C) [] ∧
    decode .fsm [0b01000001, 0x30] = .ok (.fsmHdrLast 0x30) [] ∧ decode .fsm [0b00001001] = .ok .fsmHdrEos [] ∧
    decode .fsm [0b00000010, 0x33] = .ok (.fsmPld 0x33) [] ∧ decode .fsm [0b00001010] = .ok .fsmPldEos [] ∧
    decode .fsm [0b00000011, 0xE2] = .ok (.fsmCrc 0xE2) [] ∧ decode .fsm [0b01000011, 1] = .ok (.fsmCrcLast 1) [] ∧
    decode .fsm [0b00001011] = .ok .fsmCrcEos [] ∧ decode .fsm [0b00000100] = .ok .fsmDisp [] ∧
    decode .fsm [0b00000101] = .ok .fsmHalt [] ∧ decode .fsm [0b00011000] = .ok .fsmReset [] ∧
    decode .fsm [0b00100000, 3] = .ok (.fsmDrop .checksumMismatch) [] := by decide

/-- Codes 6 and 7 are unused (R107), as are reason codes 0, 6 and 7 (R108); Dispatching and Halted accept no end of stream and
only SeekingSync accepts Stop (R243). -/
theorem test_decode_fsm_rejects :
    decode .fsm [0b00000110, 0] = .reject .unusedStateCode ∧ decode .fsm [0b00000111, 0] = .reject .unusedStateCode ∧
    decode .fsm [0b00100000, 0] = .reject .unusedReasonCode ∧ decode .fsm [0b00100000, 6] = .reject .unusedReasonCode ∧
    decode .fsm [0b00001100] = .reject .inputNotAccepted ∧ decode .fsm [0b00010001] = .reject .inputNotAccepted ∧
    decode .fsm [0b00101000] = .reject .unusedInputKind ∧ decode .fsm [0b10000000, 0] = .reject .unusedBits ∧
    decode .fsm [] = .reject .tooShort := by decide

/-- The selectors are the model's own (log 9); the operands are little-endian (20_memory.md R65). -/
theorem test_decode_crc :
    decode .func [0, 0x78, 0x56, 0x34, 0x12] = .ok (.crcBit 0x12345678) [] ∧
    decode .func [1, 0x78, 0x56, 0x34, 0x12] = .ok (.crcLoop8 0x12345678) [] ∧
    decode .func [2, 0x78, 0x56, 0x34, 0x12, 0x9A] = .ok (.crcStep 0x12345678 0x9A) [] ∧
    decode .func [3, 2, 0, 0, 0, 0xAA, 0x44] = .ok (.crcCompute [0xAA, 0x44]) [] ∧
    decode .func [4, 1, 0, 0, 0, 0xAA, 0xF6, 0x4A, 0x03, 0x36] = .ok (.crcVerify [0xAA] 0x36034AF6) [] ∧
    decode .func [5] = .ok .crcClr [] ∧ decode .func [6, 0x31] = .ok (.crcAbsorb 0x31) [] ∧
    decode .func [22] = .reject .unusedSelector := by decide

theorem test_decode_extractors :
    decode .func [7, 3, 0, 0] = .ok (.extU8 3) [] ∧ decode .func [8, 6, 0, 0] = .ok (.extI8 6) [] ∧
    decode .func [9, 0x1A, 0, 0] = .ok (.extU16 26) [] ∧ decode .func [10, 0x14, 0, 0] = .ok (.extU32 20) [] ∧
    decode .func [11, 0x10, 0, 0] = .ok (.extI32 16) [] ∧ decode .func [12, 0x3C, 0, 0] = .ok (.extF32 60) [] ∧
    decode .func [13, 0x1E, 0, 1] = .ok (.extF64 65566) [] ∧
    decode .func [13, 0x1F, 0, 1] = .reject .addressOutOfRange := by decide

theorem test_decode_decoders :
    decode .func [14, 1, 0, 0, 0, 0x1C] = .ok (.hdrParse [0x1C]) [] ∧
    decode .func ([14, 26, 0, 0, 0] ++ List.replicate 26 0) = .reject .headerTooLong ∧
    decode .func [15, 28, 25, 0, 0, 0] = .ok (.hdrValidate 28 25) [] ∧
    decode .func [16, 0x2A, 0, 0x48, 0] = .ok (.pldDispatch 42 72) [] ∧
    decode .func [17, 0, 0, 0, 0, 50, 0, 0, 0] = .ok (.pldFixq 0 50) [] ∧
    decode .func [18, 1, 0, 0, 0, 2, 0, 0, 0, 3, 0, 0, 0] = .ok (.pldCov 1 2 3) [] ∧
    decode .func [19, 12, 10] = .ok (.pldSats 12 10) [] ∧
    decode .func ([20, 0, 0, 0, 0, 0, 0, 0x24, 0x40] ++ [0, 0, 0, 0, 0, 0x80, 0x56, 0x40]) =
      .ok (.pldVx 0x4024000000000000 0x4056800000000000) [] ∧
    decode .func ([21, 0, 0, 0, 0, 0, 0, 0x24, 0x40] ++ [0, 0, 0, 0, 0, 0x80, 0x56, 0x40]) =
      .ok (.pldVy 0x4024000000000000 0x4056800000000000) [] := by decide

/-- The table's own words (opcode_table.json) reach the decoder and the step. -/
theorem test_tableWord :
    decodeTableWord 24 0x1244AA = some .sync ∧ decodeTableWord 16 0x002A = some .pldBestpos ∧
    decodeTableWord 16 0x0063 = some .pldBestvel ∧ decodeTableWord 8 4 = some .fsmDisp ∧
    decodeTableWord 8 5 = some .fsmHalt := by decide

theorem test_withFetchWord : (nextOf (step (State.reset.withFetchWord 24 0x1244AA))).map regs =
    some ⟨.readingHeader, 0, 0, 3, 0, 0xB34323FF, 0⟩ := by decide +kernel

theorem test_withFetchWord_disp : ((nextOf (step (State.reset.withFetchWord 8 4))).bind State.evt).map Offer.event =
    some (.frame (plainHeader 0 0) (.unrecognized 0)) := by decide +kernel

/-! ### CRC Engine: section 2.1 -/

/-- T-CRC-2, T-CRC-3. -/
theorem test_crcBit : resultOf (.crcBit 1) State.reset = some (.u32 0xEDB88320) ∧
    resultOf (.crcBit 2) State.reset = some (.u32 1) := by decide +kernel

/-- T-CRC-11, T-CRC-16. -/
theorem test_crcLoop8 : resultOf (.crcLoop8 0xAA) State.reset = some (.u32 0x36034AF6) ∧
    resultOf (.crcLoop8 0x12345678) State.reset = some (.u32 0x5ECCCD58) := by decide +kernel

/-- T-CRC-18g, T-CRC-18j: only the low byte is combined. -/
theorem test_crcStep : resultOf (.crcStep 0x12345678 0x9A) State.reset = some (.u32 0x4E16B702) ∧
    resultOf (.crcStep 0x12345678 0x78) State.reset = some (.u32 0x00123456) := by decide +kernel

/-- T-CRC-20. -/
theorem test_crcCompute : resultOf (.crcCompute [0x31, 0x32, 0x33, 0x34, 0x35, 0x36, 0x37, 0x38, 0x39]) State.reset =
    some (.u32 0x2DFD2D88) := by decide +kernel

/-- T-CRC-29, T-CRC-30. -/
theorem test_crcVerify : resultOf (.crcVerify [0xAA, 0x44, 0x12] 0xB34323FF) State.reset = some (.bit true) ∧
    resultOf (.crcVerify [0xAA, 0x44, 0x12] 0xB34323FE) State.reset = some (.bit false) := by decide +kernel

/-- R136. -/
theorem test_crcClr : regsAfter .crcClr (inState .readingHeader 0 1 4 0 0x39B0F0E1 0 headC) =
    some ⟨.readingHeader, 0, 1, 4, 0, 0, 0⟩ := by decide +kernel

/-- T-CRC-18e as R137. -/
theorem test_crcAbsorb : regsAfter (.crcAbsorb 0x1C) (inState .readingHeader 0 0 3 0 0xB34323FF 0 headC) =
    some ⟨.readingHeader, 0, 0, 3, 0, 0x39B0F0E1, 0⟩ := by decide +kernel

/-! ### Extractors: section 2.2 -/

/-- T-EXT-1. -/
theorem test_extU8 : resultOf (.extU8 9) (holding 9 [0xFF]) = some (.u8 255) := by decide +kernel

/-- T-EXT-2: 80 reads as −128. -/
theorem test_extI8 : resultOf (.extI8 9) (holding 9 [0x80]) = some (.i8 (BitVec.ofInt 8 (-128))) := by decide +kernel

/-- T-EXT-3, and T-EXT-8 at an odd address. -/
theorem test_extU16 : resultOf (.extU16 8) (holding 8 [0x8E, 0x08]) = some (.u16 2190) ∧
    resultOf (.extU16 5) (holding 5 [0x00, 0xFF]) = some (.u16 0xFF00) := by decide +kernel

/-- T-EXT-4. -/
theorem test_extU32 : resultOf (.extU32 8) (holding 8 [0x40, 0x00, 0x00, 0x02]) = some (.u32 33554496) := by
  decide +kernel

/-- T-EXT-5: 00 00 00 80 reads as −2147483648. -/
theorem test_extI32 : resultOf (.extI32 8) (holding 8 [0x00, 0x00, 0x00, 0x80]) =
    some (.i32 (BitVec.ofInt 32 (-2147483648))) := by decide +kernel

/-- T-EXT-6. -/
theorem test_extF32 : resultOf (.extF32 8) (holding 8 [0x00, 0x00, 0x82, 0xC1]) = some (.f32 0xC1820000) := by
  decide +kernel

/-- T-EXT-7, with its NaN pattern. -/
theorem test_extF64 :
    resultOf (.extF64 8) (holding 8 [0x00, 0x00, 0x00, 0x00, 0x00, 0xA0, 0x49, 0x40]) = some (.f64 0x4049A00000000000) ∧
    resultOf (.extF64 8) (holding 8 [0x01, 0x00, 0x00, 0x00, 0x00, 0x00, 0xF0, 0x7F]) = some (.f64 0x7FF0000000000001) := by
  decide +kernel

/-! ### Header Decoder: section 2.3 -/

/-- T-HDR-1, with `gps_week` for both parameter values, and T-HDR-1d. -/
theorem test_hdrParse : resultOf (.hdrParse (headA.drop 3)) State.reset = some (.header headerA) ∧
    headerA.gpsWeek .f5 = 2190 ∧ headerA.gpsWeek .f8 = 258 ∧ headerA.msOfWeek = 345600000 ∧
    headerA.receiverStatus = 0x02000040 := by decide +kernel

theorem test_hdrParse_short : resultOf (.hdrParse (headA.drop 4)) State.reset = some (.error .malformedHeader) := by
  decide +kernel

/-- T-HDR-2, and 255 bytes consumed against header_length 2: no wrap (R170). -/
theorem test_hdrValidate : ([0, 2, 3, 22, 25, 27, 28, 29, 31, 255].map fun hl => resultOf (.hdrValidate hl 25) State.reset) =
    ([false, false, false, false, false, false, true, false, false, false].map fun b => some (.bit b)) ∧
    resultOf (.hdrValidate 2 255) State.reset = some (.bit false) := by decide +kernel

/-! ### Payload Decoder: section 2.4 -/

/-- T-PLD-1. -/
theorem test_pldBestpos : resultOf .pldBestpos (holding 28 payloadA) = some (.body (.positionFix recordA)) := by
  decide +kernel

/-- T-PLD-5: the raw fields of frame B; `rsv` is the last four bytes of the payload. -/
theorem test_pldBestvel :
    let r := decodeBestvel (holding 28 payloadB)
    exec .pldBestvel (holding 28 payloadB) = .next { holding 28 payloadB with result := .body (.velocityFix r) } ∧
    (r.solStatus, r.velType, r.latency, r.age) = (0, 50, 0, 0) ∧
    (r.horSpeed, r.trackGnd, r.vertSpeed, r.rsv) = (0x4024000000000000, 0x4056800000000000, 0xBFE0000000000000, 0) :=
  ⟨rfl, by decide +kernel, by decide +kernel⟩

/-- T-PLD-4, row 298. -/
theorem test_pldUnrec : resultOf (.pldUnrec 298) State.reset = some (.body (.unrecognized 298)) := by decide +kernel

/-- T-PLD-4: a good size, a bad one, an unrecognized ID. -/
theorem test_pldDispatch : resultOf (.pldDispatch 42 72) (holding 28 payloadA) = some (.body (.positionFix recordA)) ∧
    eventAfter (.pldDispatch 99 72) State.reset = some (.dropped .payloadSizeMismatch (some [])) ∧
    resultOf (.pldDispatch 7 2) State.reset = some (.body (.unrecognized 7)) := by decide +kernel

/-- T-PLD-2. -/
theorem test_pldFixq : ([50, 18, 0, 17, 19, 49, 51, -50, 0x00010032].map fun p => resultOf (.pldFixq 0 p) State.reset) =
    ([.gpsFix, .sbasFix, .noFix, .noFix, .noFix, .noFix, .noFix, .noFix, .noFix].map fun q => some (.fixQuality q)) ∧
    resultOf (.pldFixq 1 50) State.reset = some (.fixQuality .noFix) ∧
    resultOf (.pldFixq 0x00010000 50) State.reset = some (.fixQuality .noFix) := by decide +kernel

/-- S-X3: copied, not squared. -/
theorem test_pldCov : resultOf (.pldCov 0x3F000000 0x3E800000 0x3FC00000) State.reset =
    some (.covariance ⟨0x3F000000, 0x3E800000, 0x3FC00000, .diagonalKnown⟩) := by decide +kernel

theorem test_pldSats : resultOf (.pldSats 12 10) State.reset = some (.satCounts 12 10) := by decide +kernel

/-- The order of the products (R232, R233). -/
theorem test_pldVx (h a : Dword) : resultOf (.pldVx h a) State.reset =
    some (.f64 (Config.fmul (Config.fmul h 0x3FE07654320FDE28) (Config.fsin (Config.radians a)))) := rfl
theorem test_pldVy (h a : Dword) : resultOf (.pldVy h a) State.reset =
    some (.f64 (Config.fmul (Config.fmul h 0x3FE07654320FDE28) (Config.fcos (Config.radians a)))) := rfl

/-- T-PLD-6 under the reference choice (D17): as specified. -/
theorem test_reference_scaled :
    referenceRadians 0x4056800000000000 = 0x3FF921FB54442D18 ∧
    referenceFmul 0x4024000000000000 knotsToMps = 0x401493E93E93D5B2 ∧
    referenceFmul 0x401493E93E93D5B2 0x3FF0000000000000 = 0x401493E93E93D5B2 ∧
    referenceFmul 0x401493E93E93D5B2 0x3C91A62633145C07 = 0x3CB6B2D78761EC2C := by decide +kernel

/-- T-PLD-6: the alternative without scaling that the source asks a test to note (42_payload_decoder.md R235): `vx'` = 10.0;
it is not what the block computes. -/
theorem test_reference_unscaled : referenceFmul 0x4024000000000000 0x3FF0000000000000 = 0x4024000000000000 := by
  decide +kernel

/-! ### The sequencer: section 2.5 -/

/-- T-FSM-1 a, c, d: the match count. -/
theorem test_fsmSeek_match : ([(0, 0xAA), (1, 0x44), (2, 0xAA), (2, 0x44), (1, 0xAA), (1, 0x12), (0, 0x44)].map fun p =>
      syncMatch p.1 p.2) = [some 1, some 2, some 1, some 0, some 1, some 0, some 0] ∧
    syncMatch 2 0x12 = none := by decide

/-- T-FSM-2, R244 first row. -/
theorem test_fsmSeek : regsAfter (.fsmSeek 0x12) (inState .seekingSync 2 0 0 0 0 0 []) =
    some ⟨.readingHeader, 0, 0, 3, 0, 0xB34323FF, 0⟩ ∧
    (nextOf (exec (.fsmSeek 0x12) (inState .seekingSync 2 0 0 0 0 0 []))).map State.buf =
      some [(0, 0xAA), (1, 0x44), (2, 0x12)] := by decide +kernel

/-- The preamble row has the effect of the third byte. -/
theorem test_sync : regsAfter .sync State.reset = some ⟨.readingHeader, 0, 0, 3, 0, 0xB34323FF, 0⟩ := by decide +kernel

/-- T-FSM-2, R246. -/
theorem test_fsmSeekEos : regsAfter .fsmSeekEos (inState .seekingSync 2 0 0 0 0 0 []) =
    some ⟨.halted, 0, 0, 0, 0, 0, 0⟩ := by decide +kernel

/-- T-FSM-2, R247. -/
theorem test_fsmStop : regsAfter .fsmStop (inState .seekingSync 1 0 0 0 0 0 []) = some ⟨.halted, 0, 0, 0, 0, 0, 0⟩ := by
  decide +kernel

/-- T-FSM-2, R248. -/
theorem test_fsmHdr : regsAfter (.fsmHdr 0x1C) (inState .readingHeader 0 0 3 0 0xB34323FF 0 (headC.take 3)) =
    some ⟨.readingHeader, 0, 1, 4, 0, 0x39B0F0E1, 0⟩ ∧
    (nextOf (exec (.fsmHdr 0x1C) (inState .readingHeader 0 0 3 0 0xB34323FF 0 (headC.take 3)))).map State.buf =
      some (bytesAt 0 (headC.take 4)) := by decide +kernel

/-- T-FSM-2, R249, frame C; the accumulator before it is P0's. -/
theorem test_fsmHdrLast : regsAfter (.fsmHdrLast 0) (inState .readingHeader 0 24 27 0 0xA9A35375 0 (headC.take 27)) =
    some ⟨.readingChecksum, 0, 0, 28, 0, 0x20C626E0, 0⟩ := by decide +kernel

/-- T-FSM-2, R249: header 1B 07 00 ... is malformed, with 28 raw bytes. -/
theorem test_fsmHdrLast_malformed :
    eventAfter (.fsmHdrLast 0) (inState .readingHeader 0 24 27 0 0 0 ([0xAA, 0x44, 0x12, 0x1B, 7] ++ List.replicate 22 0)) =
      some (.dropped .malformedHeader (some ([0xAA, 0x44, 0x12, 0x1B, 7] ++ List.replicate 23 0))) ∧
    regsAfter (.fsmHdrLast 0) (inState .readingHeader 0 24 27 0 0 0 ([0xAA, 0x44, 0x12, 0x1B, 7] ++ List.replicate 22 0)) =
      some cleared := by decide +kernel

/-- T-FSM-2, R250 (P9). -/
theorem test_fsmHdrEos : eventAfter .fsmHdrEos (inState .readingHeader 0 7 10 0 0xEA285772 0 (headC.take 10)) =
      some (.dropped .malformedHeader (some (headC.take 10))) ∧
    regsAfter .fsmHdrEos (inState .readingHeader 0 7 10 0 0xEA285772 0 (headC.take 10)) = some cleared := by decide +kernel

/-- T-FSM-2, R251: the second payload byte of frame D; the accumulator is computed to 0x877A4EBD. -/
theorem test_fsmPld :
    let s := inState .readingPayload 0 1 29 2 (computeCrc32 (headD ++ [0xAA])) 0 (headD ++ [0xAA])
    regsAfter (.fsmPld 0x44) s = some ⟨.readingChecksum, 0, 0, 30, 2, 0x877A4EBD, 0⟩ := by decide +kernel

/-- T-FSM-2, R251: the first one stays in the section. -/
theorem test_fsmPld_more :
    let s := inState .readingPayload 0 0 28 2 (computeCrc32 headD) 0 headD
    regsAfter (.fsmPld 0xAA) s = some ⟨.readingPayload, 0, 1, 29, 2, computeCrc32 (headD ++ [0xAA]), 0⟩ := by decide +kernel

/-- T-FSM-2, R252 (P5): 71 of 72 payload bytes. -/
theorem test_fsmPldEos : eventAfter .fsmPldEos (inState .readingPayload 0 71 99 72 0 0 (headA ++ payloadA.take 71)) =
    some (.dropped .truncatedPayload (some (headA ++ payloadA.take 71))) := by decide +kernel

/-- T-FSM-2, R253: the first and the third checksum byte of frame A. -/
theorem test_fsmCrc : regsAfter (.fsmCrc 0xE2) (inState .readingChecksum 0 0 100 72 0x01BCF1E2 0 []) =
      some ⟨.readingChecksum, 0, 1, 101, 72, 0x01BCF1E2, 0x000000E2⟩ ∧
    regsAfter (.fsmCrc 0xBC) (inState .readingChecksum 0 2 102 72 0x01BCF1E2 0x0000F1E2 []) =
      some ⟨.readingChecksum, 0, 3, 103, 72, 0x01BCF1E2, 0x00BCF1E2⟩ := by decide +kernel

/-- T-FSM-2, R254: the matching byte. -/
theorem test_fsmCrcLast : regsAfter (.fsmCrcLast 1) (inState .readingChecksum 0 3 103 72 0x01BCF1E2 0x00BCF1E2 []) =
    some ⟨.dispatching, 0, 0, 104, 72, 0x01BCF1E2, 0x01BCF1E2⟩ := by decide +kernel

/-- P3: the first checksum byte changed. -/
theorem test_fsmCrcLast_mismatch :
    eventAfter (.fsmCrcLast 0x20) (inState .readingChecksum 0 3 31 0 0x20C626E0 0x00C626E1 (headC ++ [0xE1, 0x26, 0xC6])) =
      some (.dropped .checksumMismatch (some (headC ++ [0xE1, 0x26, 0xC6, 0x20]))) := by decide +kernel

/-- T-FSM-2, R255 (P10). -/
theorem test_fsmCrcEos :
    eventAfter .fsmCrcEos (inState .readingChecksum 0 2 30 0 0x20C626E0 0x000026E0 (headC ++ [0xE0, 0x26])) =
      some (.dropped .truncatedChecksum (some (headC ++ [0xE0, 0x26]))) := by decide +kernel

/-- T-FSM-2, R256, frame C, and frame A with T-HDR-1 and T-PLD-1. -/
theorem test_fsmDisp :
    eventAfter .fsmDisp (inState .dispatching 0 0 32 0 0x20C626E0 0x20C626E0 headC) =
      some (.frame (plainHeader 7 0) (.unrecognized 7)) ∧
    eventAfter .fsmDisp (inState .dispatching 0 0 104 72 0x01BCF1E2 0x01BCF1E2 (headA ++ payloadA)) =
      some (.frame headerA (.positionFix recordA)) := by decide +kernel

/-- T-FSM-2, R256, frame E (P7). -/
theorem test_fsmDisp_size :
    let raw := headE ++ List.replicate 71 0 ++ [0x99, 0xC2, 0x52, 0xE1]
    eventAfter .fsmDisp (inState .dispatching 0 0 103 71 0xE152C299 0xE152C299 raw) =
      some (.dropped .payloadSizeMismatch (some raw)) := by decide +kernel

/-- T-FSM-2, R257. -/
theorem test_fsmHalt : regsAfter .fsmHalt (inState .halted 0 0 0 0 0 0 []) = some ⟨.halted, 0, 0, 0, 0, 0, 0⟩ := by
  decide +kernel

/-- R310: from the middle of a frame. -/
theorem test_fsmReset : regsAfter .fsmReset (inState .readingChecksum 0 2 30 0 0x20C626E0 0x000026E0 headC) = some cleared ∧
    eventAfter .fsmReset (inState .readingChecksum 0 2 30 0 0x20C626E0 0x000026E0 headC) = none := by decide +kernel

/-- R262 with RAW_ON_DROP = false (00_scope.md R12): no raw bytes, the length stays. -/
theorem test_fsmDrop :
    (nextOf (exec (.fsmDrop .malformedHeader) { inState .readingHeader 0 7 10 0 0 0 [] with
      cfg := { Config.defaults with rawOnDrop := false } })).bind State.evt =
      some ⟨.dropped .malformedHeader none, 10⟩ := by decide +kernel

/-- T-HDR-3: a length of 65535 against bounds of 65535 and 65534. -/
theorem test_lengthBound : lengthAllowed Config.defaults 65535 = true ∧
    lengthAllowed { Config.defaults with maxPayloadLen := 65534 } 65535 = false := by decide

/-! ### The step -/

/-- P6: Stop is not looked at inside a frame, and wins over a waiting byte between frames. -/
theorem test_stop_priority :
    (nextOf (step { inState .readingHeader 0 7 10 0 0 0 [] with stopReq := true, feed := [.byte 0] })).map (fun t => (t.st, t.cursor)) =
      some (.readingHeader, 1) ∧
    (nextOf (step { State.reset with stopReq := true, feed := [.byte 0xAA] })).map (fun t => (t.st, t.cursor)) =
      some (.halted, 0) := by decide +kernel

/-- R242: a waiting event holds the byte back; then the sink takes it. -/
theorem test_backpressure :
    (nextOf (step { State.reset with evt := some ⟨.frame headerA (.unrecognized 7), 32⟩, evtReady := false,
                                     feed := [.byte 0xAA] })).map (fun t => (t.m, t.trace.length, t.cursor)) = some (0, 0, 0) ∧
    (nextOf (step { State.reset with evt := some ⟨.frame headerA (.unrecognized 7), 32⟩,
                                     feed := [.byte 0xAA] })).map (fun t => (t.m, t.trace.length, t.cursor)) =
      some (0, 1, 0) := by decide +kernel

/-- An unused code on the operation port is refused by name. -/
theorem test_stops :
    step { State.reset with op := some ⟨.fsm, [7, 0]⟩ } = .refused (.noSuchOperation .unusedStateCode) := rfl

/-- R72: a store past the end of `buf` goes on and changes no byte, one at its last address is kept. -/
theorem test_store_at_the_end :
    let s := { inState .readingPayload 0 5 33 9 0 0 [] with cfg := { Config.defaults with maxPayloadLen := 1 } }
    (nextOf (exec (.fsmPld 0x55) s)).map (fun t => (t.buf.find 33, t.cnt, t.n)) = some (none, 6, 34) ∧
    (nextOf (exec (.fsmPld 0x55) { s with cnt := 4 })).map (fun t => (t.buf.find 32, t.cnt)) = some (some 0x55, 5) := by
  decide +kernel

/-! ### Witnesses: states and operands that meet the hypotheses of each obligation -/

/-- A frame in progress in each section, with frame C's or D's bytes. -/
def atHeader : State := inState .readingHeader 0 0 3 0 0xB34323FF 0 (headC.take 3)
def atHeaderEnd : State := inState .readingHeader 0 24 27 0 0xA9A35375 0 (headC.take 27)
def atPayload : State := inState .readingPayload 0 1 29 2 (computeCrc32 (headD ++ [0xAA])) 0 (headD ++ [0xAA])
def atChecksum : State := inState .readingChecksum 0 2 30 0 0x20C626E0 0x000026E0 (headC ++ [0xE0, 0x26])
def atChecksumEnd : State := inState .readingChecksum 0 3 31 0 0x20C626E0 0x00C626E0 (headC ++ [0xE0, 0x26, 0xC6])
def atDispatch : State := inState .dispatching 0 0 32 0 0x20C626E0 0x20C626E0 (headC ++ [0xE0, 0x26, 0xC6, 0x20])
def seeking : State := inState .seekingSync 2 0 0 0 0 0 []
def stopped : State := inState .halted 0 0 0 0 0 0 []

/-- A state with an event waiting. -/
def waiting : State := { State.reset with evt := some ⟨.frame headerA (.unrecognized 7), 32⟩ }

/-- A state with an environment that presents something. -/
def facing (s : State) (f : List Feed) : State := { s with feed := f }

theorem witness_DecodeEncodeRoundTrip :
    (Instr.extF64 65559).wellFormed = true ∧ (Instr.pldUnrec 298).wellFormed = true ∧
    (Instr.hdrParse (headA.drop 3)).wellFormed = true ∧ (Instr.hdrValidate 28 4294967295).wellFormed = true := by decide

theorem witness_DecodedOperationsAreWellFormed : decode .fsm [0x00, 0x5A, 0x77] = .ok (.fsmSeek 0x5A) [0x77] := by decide

theorem witness_WireWordsAreCanonical : decode .wireMsgid [0x2A, 0x01, 0x05] = .ok (.pldUnrec 298) [0x05] := by decide

theorem witness_StepRunsOfferedOperation :
    ∃ (s : State) (w : OpWord) (i : Instr) (rest : List Byte), s.op = some w ∧ decode w.format w.bytes = .ok i rest ∧
      s.st = .readingPayload :=
  ⟨{ atPayload with op := some ⟨.func, [5]⟩ }, ⟨.func, [5]⟩, .crcClr, [], rfl, by decide, rfl⟩

theorem witness_StepRunsSelectedOperation :
    (facing waiting [.rst true]).op = none ∧ (facing waiting [.rst true]).sample.rst = true ∧
    (facing waiting [.rst true]).sample.select = some .fsmReset ∧
    (facing atPayload [.byte 0x44]).op = none ∧ (facing atPayload [.byte 0x44]).evt = none ∧
    (facing atPayload [.byte 0x44]).sample.select = some (.fsmPld 0x44) := ⟨rfl, rfl, rfl, rfl, rfl, rfl⟩

/-- One state for each clause, with the counter at the boundary of its condition. -/
theorem witness_SequencerSelectionTable :
    { stopped with rst := true }.select = some .fsmReset ∧ { atDispatch with rst := true }.select = some .fsmReset ∧
    { seeking with stopReq := true }.select = some .fsmStop ∧ { seeking with eos := true }.select = some .fsmSeekEos ∧
    (facing seeking [.byte 0x12]).select = some (.fsmSeek 0x12) ∧ { atHeader with eos := true }.select = some .fsmHdrEos ∧
    { atHeader with cnt := 23, feed := [.byte 1] }.select = some (.fsmHdr 1) ∧
    { atHeader with cnt := 24, feed := [.byte 1] }.select = some (.fsmHdrLast 1) ∧
    { atPayload with eos := true }.select = some .fsmPldEos ∧ (facing atPayload [.byte 1]).select = some (.fsmPld 1) ∧
    { atChecksum with eos := true }.select = some .fsmCrcEos ∧
    (facing atChecksum [.byte 1]).select = some (.fsmCrc 1) ∧ (facing atChecksumEnd [.byte 1]).select = some (.fsmCrcLast 1) ∧
    atDispatch.select = some .fsmDisp ∧ stopped.select = some .fsmHalt ∧
    { atPayload with stopReq := true, feed := [.byte 1] }.select = some (.fsmPld 1) := by decide

theorem witness_WaitingEventHoldsUpTheBlock :
    waiting.op = none ∧ waiting.evt = some ⟨.frame headerA (.unrecognized 7), 32⟩ ∧ waiting.sample.rst = false ∧
    (facing waiting [.sink false]).sample.evtReady = false := ⟨rfl, rfl, rfl, rfl⟩

theorem witness_WaitingForAByteChangesNothing :
    [seeking, atHeader, atPayload, atChecksum].all (fun s => s.op.isNone && s.evt.isNone && !s.sample.rst && !s.sample.eos &&
      s.sample.feed.isEmpty && !s.sample.stopReq) = true ∧
    ([.eos, .stop true, .rst true, .sink false] : List Feed).all (fun f => (facing seeking [f]).sample.feed.isEmpty) = true ∧
    (facing seeking [.byte 1]).feed = .byte 1 :: [] := by decide

theorem witness_HaltedAcceptsNothing :
    (facing stopped [.byte 1]).op = none ∧ (facing stopped [.byte 1]).evt = none ∧
    (facing stopped [.byte 1]).sample.rst = false ∧ (facing stopped [.byte 1]).st = .halted := ⟨rfl, rfl, rfl, rfl⟩

theorem witness_CursorNeverMovesBack :
    (∃ t, step (facing atPayload [.byte 0x44, .eos]) = .next t ∧ t.cursor = 1 ∧ t.feed = [.eos]) ∧
    (∃ t, step atDispatch = .next t ∧ t.cursor = 0) := ⟨⟨_, rfl, rfl, rfl⟩, _, rfl, rfl⟩

/-- Also of AtMostOneEventPerOperation and EveryEventEndsTheFrame. -/
theorem witness_OperationsLeaveEnvironment :
    ∃ t, exec .fsmDisp atDispatch = .next t ∧ atDispatch.evt = none ∧ t.evt ≠ none :=
  ⟨_, rfl, rfl, fun h => nomatch h⟩

/-- One operation for each kind of event. -/
theorem witness_EventsComeFromTheirStates :
    (eventAfter .fsmDisp atDispatch).map Event.kind = some 0 ∧
    (eventAfter .fsmHdrEos atHeader).map Event.kind = some 1 ∧ (eventAfter .fsmPldEos atPayload).map Event.kind = some 1 ∧
    (eventAfter .fsmCrcEos atChecksum).map Event.kind = some 1 ∧
    (eventAfter (.fsmCrcLast 0) atChecksumEnd).map Event.kind = some 1 ∧
    (eventAfter .fsmDisp { atDispatch with buf := atDispatch.buf.write 4 42 }).map Event.kind = some 1 ∧
    (eventAfter (.fsmDrop .truncatedPayload) stopped).map Event.kind = some 1 ∧
    (eventAfter (.pldDispatch 42 71) stopped).map Event.kind = some 1 := by decide +kernel

/-! The invariant holds in each section of a frame, just before its last byte (EveryStepKeepsInvariant, BlockNeverStops). -/

theorem witness_blockInv_seeking : seeking.blockInv := by
  refine ⟨rfl, by decide +kernel, ?_⟩
  simp only [State.sectionInv, show seeking.st = .seekingSync from rfl, State.framesClear]
  decide +kernel

theorem witness_blockInv_atHeaderEnd : atHeaderEnd.blockInv := by
  refine ⟨rfl, by decide +kernel, ?_⟩
  simp only [State.sectionInv, show atHeaderEnd.st = .readingHeader from rfl, State.absorbed, State.written]
  decide +kernel

theorem witness_blockInv_atPayload : atPayload.blockInv := by
  refine ⟨rfl, by decide +kernel, ?_⟩
  simp only [State.sectionInv, show atPayload.st = .readingPayload from rfl, State.headerChecked, State.absorbed,
    State.written]
  decide +kernel

theorem witness_blockInv_atChecksumEnd : atChecksumEnd.blockInv := by
  refine ⟨rfl, by decide +kernel, ?_⟩
  simp only [State.sectionInv, show atChecksumEnd.st = .readingChecksum from rfl, State.headerChecked, State.absorbed,
    State.written]
  decide +kernel

theorem witness_blockInv_atDispatch : atDispatch.blockInv := by
  refine ⟨rfl, by decide +kernel, ?_⟩
  simp only [State.sectionInv, show atDispatch.st = .dispatching from rfl, State.headerChecked, State.absorbed,
    State.written]
  decide +kernel

theorem witness_blockInv_stopped : stopped.blockInv := by
  refine ⟨rfl, by decide +kernel, ?_⟩
  simp only [State.sectionInv, show stopped.st = .halted from rfl, State.framesClear]
  decide +kernel

theorem witness_EveryStepKeepsInvariant : ∃ t, step (facing atHeaderEnd [.byte 0]) = .next t ∧ t.st = .readingChecksum :=
  ⟨_, rfl, rfl⟩

/-- With nothing on the operation port, and with a word that decodes. -/
theorem witness_BlockNeverStops :
    State.reset.op = none ∧ (∃ i rest, decode .fsm [1, 0x1C] = .ok i rest) := ⟨rfl, _, _, rfl⟩

/-- Also of PreambleRowIsThreeSeeks and SeekByteTransition. -/
theorem witness_HaltingRows : seeking.st = .seekingSync ∧ seeking.m = 2 := ⟨rfl, rfl⟩

theorem witness_UnselectedOperationsChangeNothing :
    atHeader.st ≠ .seekingSync ∧ atPayload.st ≠ .readingHeader ∧ atChecksum.st ≠ .readingPayload ∧
    atDispatch.st ≠ .readingChecksum ∧ stopped.st ≠ .dispatching ∧ 24 ≤ atHeaderEnd.cnt.toNat ∧
    { atHeader with cnt := 23 }.cnt.toNat < 24 ∧ 3 ≤ atChecksumEnd.cnt.toNat ∧ atChecksum.cnt.toNat < 3 := by decide

/-- Noise with a false start and no preamble (P1's first bytes). -/
theorem witness_NoPreambleKeepsSeeking :
    let s := facing State.reset (([0x00, 0xAA, 0x44, 0x13, 0xAA] : List Byte).map .byte ++ [.eos])
    s.quiet ∧ s.betweenFrames ∧ s.feed = ([0x00, 0xAA, 0x44, 0x13, 0xAA] : List Byte).map .byte ++ [.eos] ∧
    ¬ [0xAA, 0x44, 0x12] <:+: ([0x00, 0xAA, 0x44, 0x13, 0xAA] : List Byte) := by
  refine ⟨⟨rfl, rfl, rfl, rfl, rfl⟩, ⟨rfl, rfl, rfl, rfl, rfl, rfl, rfl⟩, rfl, by decide⟩

/-- T-FSM-1 c. -/
theorem witness_FirstPreambleStartsTheHeader :
    let s := facing State.reset (([0xAA, 0x44] ++ [0xAA, 0x44, 0x12] : List Byte).map .byte ++ [])
    s.quiet ∧ s.betweenFrames ∧ s.feed = ([0xAA, 0x44] ++ [0xAA, 0x44, 0x12] : List Byte).map .byte ++ [] ∧
    ¬ [0xAA, 0x44, 0x12] <:+: ([0xAA, 0x44] ++ [0xAA, 0x44] : List Byte) := by
  refine ⟨⟨rfl, rfl, rfl, rfl, rfl⟩, ⟨rfl, rfl, rfl, rfl, rfl, rfl, rfl⟩, rfl, by decide⟩

theorem witness_HeaderByteTransition :
    atHeader.st = .readingHeader ∧ atHeader.cnt.toNat ≤ 23 ∧ { atHeader with cnt := 23 }.cnt.toNat ≤ 23 := by decide

theorem witness_HeaderCompleteTransition : ∃ t, atHeaderEnd.st = .readingHeader ∧ atHeaderEnd.cnt = 24 ∧
    t = { atHeaderEnd with buf := atHeaderEnd.buf.write 27 0, n := 28, crcAcc := crc32Step atHeaderEnd.crcAcc 0 } :=
  ⟨_, rfl, rfl, rfl⟩

theorem witness_EndOfStreamDropsTheFrame :
    atHeader.st = .readingHeader ∧ atPayload.st = .readingPayload ∧ atChecksum.st = .readingChecksum := ⟨rfl, rfl, rfl⟩

/-- The last address of `buf` under the smallest bound that allows it. -/
theorem witness_PayloadByteTransition :
    let s := { atPayload with cnt := 5, cfg := { Config.defaults with maxPayloadLen := 2 } }
    s.st = .readingPayload ∧ 28 + s.cnt.toNat < 32 + s.cfg.maxPayloadLen.toNat := by decide

theorem witness_ChecksumByteTransition :
    let s := { atChecksum with L := 3, cfg := { Config.defaults with maxPayloadLen := 2 } }
    s.st = .readingChecksum ∧ s.cnt.toNat ≤ 2 ∧ 28 + s.L.toNat + s.cnt.toNat < 32 + s.cfg.maxPayloadLen.toNat := by decide

theorem witness_ChecksumCompleteTransition : ∃ t, atChecksumEnd.st = .readingChecksum ∧ atChecksumEnd.cnt = 3 ∧
    atChecksumEnd.L.toNat ≤ atChecksumEnd.cfg.maxPayloadLen.toNat ∧
    t = { atChecksumEnd with
      buf := atChecksumEnd.buf.write (31 + atChecksumEnd.L.toNat) 0x20
      n := BitVec.ofNat 17 (32 + atChecksumEnd.L.toNat)
      crcRx := ((0x20 : Byte).setWidth 32 <<< 24) ^^^ atChecksumEnd.crcRx } := ⟨_, rfl, rfl, Nat.zero_le _, rfl⟩

/-- A complete frame of each kind. -/
def dispatchOf (id : Half) (len : Half) : State :=
  inState .dispatching 0 0 (len.setWidth 17 + 32) len 0 0
    (([0xAA, 0x44, 0x12, 0x1C, id.setWidth 8, (id >>> 8).setWidth 8, 0, 0, len.setWidth 8] : List Byte) ++ List.replicate 19 0)

theorem witness_DispatchTransition :
    ([(42, 72), (99, 44), (42, 71), (99, 45), (298, 72)] : List (Half × Half)).all (fun p =>
      decide ((dispatchOf p.1 p.2).st = .dispatching ∧ (dispatchOf p.1 p.2).header.f1 = p.1 ∧
        (dispatchOf p.1 p.2).L = p.2)) = true := by decide +kernel

/-- A byte nothing has written, and the first address past the end for each storing row. -/
theorem witness_NoFaultFromAnAddress :
    let s := { State.reset with cfg := { Config.defaults with maxPayloadLen := 39 } }
    let p := { s with st := .readingPayload, cnt := 43 }
    let c := { s with st := .readingChecksum, cnt := 2, L := 41 }
    s.buf.find (71 : Addr).toNat = none ∧ p.st = .readingPayload ∧ 32 + p.cfg.maxPayloadLen.toNat ≤ 28 + p.cnt.toNat ∧
    c.st = .readingChecksum ∧ c.cnt.toNat ≤ 2 ∧ 32 + c.cfg.maxPayloadLen.toNat ≤ 28 + c.L.toNat + c.cnt.toNat ∧
    { c with cnt := 3, L := 40 }.cfg.maxPayloadLen.toNat < { c with cnt := 3, L := 40 }.L.toNat := by decide

/-- Each storing row, and one of the others, completes. -/
theorem witness_BufferChangesOnlyWhereARowStores :
    ([(.fsmSeek 0x12, seeking), (.sync, seeking), (.fsmHdr 1, atHeader), (.fsmHdrLast 0, atHeaderEnd), (.fsmPld 1, atPayload),
      (.fsmCrc 0xC6, atChecksum), (.fsmCrcLast 0x20, atChecksumEnd), (.fsmDisp, atDispatch)] : List (Instr × State)).all (fun p =>
        (nextOf (exec p.1 p.2)).isSome) = true ∧
    headerAddr atHeader.cnt.toNat = 3 ∧ payloadAddr atPayload.cnt.toNat = 29 ∧
    checksumAddr atChecksum.L + atChecksum.cnt.toNat = 30 ∧ checksumAddr atChecksumEnd.L + 3 = 31 := by decide +kernel

theorem witness_FunctionsChangeOnlyTheResult :
    ∃ t, (Instr.extU16 26).format = .func ∧ Instr.extU16 26 ≠ .crcClr ∧ exec (.extU16 26) (holding 26 [0x39, 0x30]) = .next t :=
  ⟨_, rfl, by decide, rfl⟩

theorem witness_SingleByteErrorsAreDetected : (0xE0 : Byte) ≠ 0xE1 := by decide

theorem witness_HeaderParse : (headA.drop 4).length < 25 ∧ (headA.drop 3).length = 25 ∧ 25 < (headA.drop 2).length := by decide

theorem witness_PortOutputs : waiting.evt = some ⟨.frame headerA (.unrecognized 7), 32⟩ := rfl

theorem witness_DerivedValues : (43 : Half) ≠ 42 ∧ (43 : Half) ≠ 99 := by decide

theorem witness_RecordsRoundTrip :
    (holding 28 payloadA).readBytes 28 72 = bestposBytes recordA ∧
    (holding 28 payloadB).readBytes 28 44 = bestvelBytes {
      solStatus := 0, velType := 50, latency := 0, age := 0, horSpeed := 0x4024000000000000, trackGnd := 0x4056800000000000
      vertSpeed := 0xBFE0000000000000, rsv := 0, vx := 0, vy := 0 } := by decide +kernel

/-- Frame D's payload behind the reset state. -/
theorem witness_UnrecognizedFrameIsDecoded :
    let s := facing State.reset ((frameWith (plainHeader 7 2) [0xAA, 0x44]).map .byte ++ [.eos])
    s.quiet ∧ s.betweenFrames ∧ (plainHeader 7 2).f0 = 28 ∧ (plainHeader 7 2).f4.toNat = [0xAA, 0x44].length ∧
    [0xAA, 0x44].length ≤ s.cfg.maxPayloadLen.toNat ∧ (plainHeader 7 2).f1 ≠ 42 ∧ (plainHeader 7 2).f1 ≠ 99 ∧
    { s with feed := [.eos] }.sample.rst = false := by
  refine ⟨⟨rfl, rfl, rfl, rfl, rfl⟩, ⟨rfl, rfl, rfl, rfl, rfl, rfl, rfl⟩, rfl, rfl, by decide, by decide, by decide, rfl⟩

/-- Frame A, whose bytes are the spec's. -/
theorem witness_BestposFrameIsDecoded :
    let s := facing State.reset ((frameWith headerA (bestposBytes recordA)).map .byte ++ [])
    s.quiet ∧ s.betweenFrames ∧ headerA.f0 = 28 ∧ headerA.f1 = 42 ∧ headerA.f4 = 72 ∧ 72 ≤ s.cfg.maxPayloadLen.toNat ∧
    { s with feed := [] }.sample.rst = false ∧ frameWith headerA (bestposBytes recordA) = headA ++ payloadA ++ [0xE2, 0xF1, 0xBC, 0x01] := by
  refine ⟨⟨rfl, rfl, rfl, rfl, rfl⟩, ⟨rfl, rfl, rfl, rfl, rfl, rfl, rfl⟩, rfl, rfl, rfl, by decide, rfl, by decide +kernel⟩

theorem witness_BestvelFrameIsDecoded :
    let s := facing State.reset ((frameWith (plainHeader 99 44) payloadB).map .byte ++ [])
    s.quiet ∧ s.betweenFrames ∧ (plainHeader 99 44).f0 = 28 ∧ (plainHeader 99 44).f1 = 99 ∧ (plainHeader 99 44).f4 = 44 ∧
    44 ≤ s.cfg.maxPayloadLen.toNat ∧ { s with feed := [] }.sample.rst = false := by
  refine ⟨⟨rfl, rfl, rfl, rfl, rfl⟩, ⟨rfl, rfl, rfl, rfl, rfl, rfl, rfl⟩, rfl, rfl, rfl, by decide, rfl⟩

/-- P3: frame C with its first checksum byte changed. -/
theorem witness_BadChecksumIsDropped :
    let s := facing State.reset ((headC ++ leBytes 4 (0x20C626E1 : Word).toNat).map .byte ++ [])
    s.quiet ∧ s.betweenFrames ∧ (plainHeader 7 0).f0 = 28 ∧ (plainHeader 7 0).f4.toNat = ([] : List Byte).length ∧
    syncBytes ++ headerBytes (plainHeader 7 0) ++ [] = headC ∧
    (0x20C626E1 : Word) ≠ computeCrc32 (syncBytes ++ headerBytes (plainHeader 7 0) ++ []) := by
  refine ⟨⟨rfl, rfl, rfl, rfl, rfl⟩, ⟨rfl, rfl, rfl, rfl, rfl, rfl, rfl⟩, rfl, rfl, by decide +kernel, by decide +kernel⟩

end Sys2Proof.Tests
end

section
/-! Proofs about reset (70_reset_and_hazards.md R310; 10_state.md R35): what `FSM.RESET` does in any state, and the machine's
own reset state as a state that `FSM.RESET` leaves as it is. -/

namespace Sys2Proof.Proofs

open Sys2Proof.Machine

/-- `FSM.RESET` completes in every state. -/
theorem exec_fsmReset (s : State) : exec .fsmReset s = .next s.resetBlock := rfl

/-- Reset field by field: the seven registers and the event; every other field is kept. -/
theorem resetBlock_eq (s : State) : s.resetBlock =
    { s with st := .seekingSync, m := 0, cnt := 0, n := 0, L := 0, crcAcc := 0, crcRx := 0, evt := none } := rfl

/-- Reset leaves the block between frames, whatever it was doing. -/
theorem resetBlock_betweenFrames (s : State) : s.resetBlock.betweenFrames := by
  simp [State.betweenFrames, State.framesClear]

/-- The machine's reset state is one that `rst` no longer changes. -/
theorem reset_resetBlock : State.reset.resetBlock = State.reset := rfl

theorem reset_betweenFrames : State.reset.betweenFrames :=
  reset_resetBlock ▸ resetBlock_betweenFrames State.reset

/-- No byte of `buf` has a value at reset (R35). -/
theorem reset_find (a : Nat) : State.reset.buf.find a = none := rfl

/-- Between frames the block is in SeekingSync, so `halted` is 0. -/
theorem haltedOut_of_betweenFrames {s : State} (h : s.betweenFrames) : s.haltedOut = false := by
  obtain ⟨hst, -⟩ := h
  simp [State.haltedOut, hst]

/-- Settles O20: `FSM.RESET` is `resetBlock`, and the machine's reset state is between frames with an empty `buf`. -/
theorem resetState : Obligations.ResetState := by
  refine ⟨fun s => ?_, reset_betweenFrames, rfl, reset_find, haltedOut_of_betweenFrames reset_betweenFrames⟩
  rw [exec_fsmReset, resetBlock_eq]

end Sys2Proof.Proofs
end

section
/-! Proofs about the CRC Engine's functions (40_crc_engine.md R132 to R135): each `CRC` function delivers its value to the result
port and changes nothing else, and the byte step combines the low byte of the accumulator only. -/

namespace Sys2Proof.Proofs

open Sys2Proof.Machine Sys2Proof.Laws

/-- Delivering a value writes the result port and keeps every other field. -/
theorem deliver_eq (s : State) (v : Value) : s.deliver v = { s with result := v } := rfl

theorem exec_crcLoop8 (v : Word) (s : State) : exec (.crcLoop8 v) s = .next (s.deliver (.u32 (crcLoop8 v))) := rfl

theorem exec_crcStep (acc : Word) (b : Byte) (s : State) :
    exec (.crcStep acc b) s = .next (s.deliver (.u32 (crc32Step acc b))) := rfl

theorem exec_crcCompute (d : List Byte) (s : State) :
    exec (.crcCompute d) s = .next (s.deliver (.u32 (computeCrc32 d))) := rfl

theorem exec_crcVerify (d : List Byte) (rx : Word) (s : State) :
    exec (.crcVerify d rx) s = .next (s.deliver (.bit (verifyChecksum d rx))) := rfl

/-- The low byte of a word, widened with zeros, is the word modulo 256. -/
theorem setWidth_lowByte (w : Word) : (w.setWidth 8).setWidth 32 = BitVec.ofNat 32 (w.toNat % 256) := by
  apply BitVec.eq_of_toNat_eq
  simp

/-- The byte step with its argument to `crc_loop8` masked to the low byte of the accumulator (R133). -/
theorem crc32Step_eq (acc : Word) (b : Byte) :
    crc32Step acc b = (acc >>> 8) ^^^ crcLoop8 (BitVec.ofNat 32 (acc.toNat % 256) ^^^ b.setWidth 32) := by
  rw [crc32Step, BitVec.setWidth_xor, setWidth_lowByte]

/-- Verifying decides whether the computed CRC is the received value in all 32 bits (R135). -/
theorem verifyChecksum_eq_decide (d : List Byte) (rx : Word) : verifyChecksum d rx = decide (computeCrc32 d = rx) := by
  rw [verifyChecksum, checksumEqual, beq_eq_decide]
  exact decide_eq_decide.mpr eq_comm

/-- Settles O38: one equation for each operation, and the two equations of the fold. -/
theorem crcFunctions : Obligations.CrcFunctions := by
  intro s v acc rx b d
  refine ⟨?loop8, ?step, computeCrc32_nil, computeCrc32_snoc d b, ?compute, ?verify⟩
  case loop8 => rw [exec_crcLoop8, deliver_eq, crcLoop8]
  case step => rw [exec_crcStep, deliver_eq, crc32Step_eq]
  case compute => rw [exec_crcCompute, deliver_eq]
  case verify => rw [exec_crcVerify, deliver_eq, verifyChecksum_eq_decide]

end Sys2Proof.Proofs
end

section
/-! Proofs about the integer extractors (41_header_parser.md R150 to R154): each delivers the read of its bytes to the result
port and changes nothing else, a read is the little-endian value of its bytes, and the signed reading is two's complement. -/

namespace Sys2Proof.Proofs

open Sys2Proof.Machine Sys2Proof.Laws

theorem exec_extU8 (a : Addr) (s : State) : exec (.extU8 a) s = .next (s.deliver (.u8 (s.memRead a.toNat 1))) := rfl

theorem exec_extI8 (a : Addr) (s : State) : exec (.extI8 a) s = .next (s.deliver (.i8 (s.memRead a.toNat 1))) := rfl

theorem exec_extU16 (a : Addr) (s : State) : exec (.extU16 a) s = .next (s.deliver (.u16 (s.memRead a.toNat 2))) := rfl

theorem exec_extU32 (a : Addr) (s : State) : exec (.extU32 a) s = .next (s.deliver (.u32 (s.memRead a.toNat 4))) := rfl

theorem exec_extI32 (a : Addr) (s : State) : exec (.extI32 a) s = .next (s.deliver (.i32 (s.memRead a.toNat 4))) := rfl

/-- A read loses nothing of its bytes' little-endian value: `w` bytes fit in `8 * w` bits. -/
theorem toNat_memRead (s : State) (a w : Nat) : (s.memRead a w).toNat = le (s.readBytes a w) := by
  have hlt : le (s.readBytes a w) < 2 ^ (8 * w) := by
    have h := le_lt (s.readBytes a w)
    rwa [length_readBytes, show (256 : Nat) = 2 ^ 8 from rfl, ← pow_mul] at h
  rw [State.memRead, BitVec.toNat_ofNat, Nat.mod_eq_of_lt hlt]

theorem toNat_memRead_two (s : State) (a : Nat) :
    (s.memRead a 2).toNat = (s.readByte a).toNat + 256 * (s.readByte (a + 1)).toNat := by
  simp [toNat_memRead, State.readBytes]

theorem toNat_memRead_four (s : State) (a : Nat) :
    (s.memRead a 4).toNat = (s.readByte a).toNat + 2 ^ 8 * (s.readByte (a + 1)).toNat +
      2 ^ 16 * (s.readByte (a + 2)).toNat + 2 ^ 24 * (s.readByte (a + 3)).toNat := by
  simp only [toNat_memRead, State.readBytes, le_cons, le_nil, Nat.add_assoc, Nat.reduceAdd]
  omega

/-- Two's complement: the lower half of the patterns reads as itself, the upper half `2 ^ (w + 1)` lower. -/
theorem toInt_eq_ite_lt_half {w : Nat} (x : BitVec (w + 1)) :
    x.toInt = if x.toNat < 2 ^ w then (x.toNat : Int) else x.toNat - 2 ^ (w + 1) := by
  have h : 2 * x.toNat < 2 ^ (w + 1) ↔ x.toNat < 2 ^ w := by rw [pow_succ]; omega
  simp [BitVec.toInt_eq_toNat_cond, h]

/-- Settles O44: `EXT.U8` and `EXT.I8` read one byte, `EXT.U16` two, `EXT.U32` and `EXT.I32` the same four. -/
theorem integerExtractors : Obligations.IntegerExtractors := by
  intro s a
  refine ⟨?u8, ?i8, toInt_eq_ite_lt_half (w := 7) _, ⟨s.memRead a.toNat 2, ?u16, toNat_memRead_two s a.toNat⟩,
    s.memRead a.toNat 4, ?u32, ?i32, toNat_memRead_four s a.toNat, toInt_eq_ite_lt_half (w := 31) _⟩
  case u8 => rw [exec_extU8, deliver_eq, memRead_one]
  case i8 => rw [exec_extI8, deliver_eq, memRead_one]
  case u16 => rw [exec_extU16, deliver_eq]
  case u32 => rw [exec_extU32, deliver_eq]
  case i32 => rw [exec_extI32, deliver_eq]

end Sys2Proof.Proofs
end

section
/-! Proof about the header-length check (41_header_parser.md R170): it decides an equation of unbounded integers. -/

namespace Sys2Proof.Proofs

open Sys2Proof.Machine

theorem exec_hdrValidate (hl : Byte) (consumed : Nat) (s : State) :
    exec (.hdrValidate hl consumed) s = .next (s.deliver (.bit (validateHeaderLength hl consumed))) := rfl

theorem validateHeaderLength_iff (hl : Byte) (consumed : Nat) :
    validateHeaderLength hl consumed = true ↔ consumed + 3 = hl.toNat :=
  decide_eq_true_iff

/-- The 25 header bytes after the preamble are the right number for a header length of 28 and no other. -/
theorem validateHeaderLength_25_iff (hl : Byte) : validateHeaderLength hl 25 = true ↔ hl = 28 := by
  rw [validateHeaderLength_iff, ← BitVec.toNat_inj]
  exact eq_comm

/-- Settles O49: the check is delivered as computed, and at 25 consumed bytes the equation has one solution. -/
theorem headerValidate : Obligations.HeaderValidate := by
  intro s hl consumed
  refine ⟨?delivered, validateHeaderLength_25_iff hl⟩
  rw [exec_hdrValidate, deliver_eq, validateHeaderLength]

end Sys2Proof.Proofs
end

section
/-! Proofs about the floating-point extractors (42_payload_decoder.md R180, R181): each delivers the read of its bytes to the
result port and changes nothing else, and bit `8 * j + k` of a read is bit `k` of byte `j`. -/

namespace Sys2Proof.Proofs

open Sys2Proof.Machine Sys2Proof.Laws

theorem exec_extF32 (a : Addr) (s : State) : exec (.extF32 a) s = .next (s.deliver (.f32 (s.memRead a.toNat 4))) := rfl

theorem exec_extF64 (a : Addr) (s : State) : exec (.extF64 a) s = .next (s.deliver (.f64 (s.memRead a.toNat 8))) := rfl

theorem getD_readBytes (s : State) (a : Nat) {w j : Nat} (d : Byte) (h : j < w) :
    (s.readBytes a w).getD j d = s.readByte (a + j) := by
  induction w generalizing a j with
  | zero => omega
  | succ w ih =>
    cases j with
    | zero => rfl
    | succ j =>
      have hj := ih (a + 1) (Nat.lt_of_succ_lt_succ h)
      rwa [Nat.add_right_comm] at hj

/-- Bit `8 * j + k` of a little-endian value is bit `k` of byte `j`; past the last byte both are 0. -/
theorem testBit_le (bs : List Byte) (j : Nat) {k : Nat} (hk : k < 8) :
    (le bs).testBit (8 * j + k) = (bs.getD j 0).getLsbD k := by
  induction bs generalizing j with
  | nil => simp
  | cons b bs ih =>
    have hsplit := Nat.testBit_two_pow_mul_add (le bs) b.isLt (8 * j + k)
    rw [le_cons, Nat.add_comm, show (256 : Nat) = 2 ^ 8 from rfl, hsplit]
    cases j with
    | zero => simp [hk, BitVec.getLsbD]
    | succ j =>
      have hge : ¬ 8 * (j + 1) + k < 8 := by omega
      have hsub : 8 * (j + 1) + k - 8 = 8 * j + k := by omega
      rw [if_neg hge, hsub, ih j, List.getD_cons_succ]

/-- A read carries every bit of its bytes to its little-endian place. -/
theorem getLsbD_memRead (s : State) (a : Nat) {w j k : Nat} (hj : j < w) (hk : k < 8) :
    (s.memRead a w).getLsbD (8 * j + k) = (s.readByte (a + j)).getLsbD k := by
  rw [BitVec.getLsbD, toNat_memRead, testBit_le _ _ hk, getD_readBytes s a 0 hj]

/-- Settles O45: `EXT.F32` reads four bytes and `EXT.F64` eight, bit for bit. -/
theorem floatExtractorsCarryPatterns : Obligations.FloatExtractorsCarryPatterns := by
  intro s a
  refine ⟨⟨s.memRead a.toNat 4, ?f32, fun _ _ => getLsbD_memRead s a.toNat⟩,
    s.memRead a.toNat 8, ?f64, fun _ _ => getLsbD_memRead s a.toNat⟩
  case f32 => rw [exec_extF32, deliver_eq]
  case f64 => rw [exec_extF64, deliver_eq]

end Sys2Proof.Proofs
end

section
/-! Proofs about the Payload Decoder's functions (42_payload_decoder.md R184, R185 to R210): each delivers its value to the
result port and changes nothing else. -/

namespace Sys2Proof.Proofs

open Sys2Proof.Machine

theorem exec_pldBestpos (s : State) :
    exec .pldBestpos s = .next (s.deliver (.body (.positionFix (decodeBestpos s)))) := rfl

theorem exec_pldUnrec (id : Half) (s : State) :
    exec (.pldUnrec id) s = .next (s.deliver (.body (.unrecognized id))) := rfl

theorem exec_pldFixq (solStatus posType : Word) (s : State) :
    exec (.pldFixq solStatus posType) s = .next (s.deliver (.fixQuality (fixQuality solStatus posType))) := rfl

theorem exec_pldCov (latStd lonStd hgtStd : Word) (s : State) :
    exec (.pldCov latStd lonStd hgtStd) s = .next (s.deliver (.covariance (covariance latStd lonStd hgtStd))) := rfl

theorem exec_pldSats (svs solnSvs : Byte) (s : State) :
    exec (.pldSats svs solnSvs) s = .next (s.deliver (.satCounts svs solnSvs)) := rfl

/-- Settles O50: with the payload at address 28 and the three derived values written out, the decoder's record is the one
stated. -/
theorem bestposRecord : Obligations.BestposRecord := by
  intro s
  rw [exec_pldBestpos, deliver_eq]
  simp only [decodeBestpos, payloadAddr, Nat.reduceAdd, covariance, satCounts]
  rw [fixQuality]

/-- Settles O52: one equation for each operation; `PLD.UNREC`'s holds at every ID. -/
theorem derivedValues : Obligations.DerivedValues := by
  intro s id ss pt x y z u w
  refine ⟨fun _ _ => ?unrec, ?fixq, ?cov, ?sats⟩
  case unrec => rw [exec_pldUnrec, deliver_eq]
  case fixq => rw [exec_pldFixq, deliver_eq, fixQuality]
  case cov => rw [exec_pldCov, deliver_eq, covariance]
  case sats => rw [exec_pldSats, deliver_eq]

end Sys2Proof.Proofs
end

section
/-! Proofs about the drop sequence (43_frame_fsm.md R262; 60_exceptions.md R292): every row that drops a frame ends in the state
`State.afterDrop` writes out. -/

namespace Sys2Proof.Proofs

open Sys2Proof.Machine

theorem raiseDrop_eq_afterDrop (reason : Reason) (s : State) : raiseDrop reason s = .next (s.afterDrop reason) := rfl

/-- `FSM.DROP` is the drop sequence in every state. -/
theorem exec_fsmDrop (reason : Reason) (s : State) : exec (.fsmDrop reason) s = raiseDrop reason s := rfl

/-- Settles O34: `FSM.DROP` is `raise Drop`, whose state is `afterDrop`. -/
theorem dropSequence : Obligations.DropSequence := by
  intro s reason
  rw [exec_fsmDrop, raiseDrop_eq_afterDrop, State.afterDrop]

end Sys2Proof.Proofs
end

section
/-! Proofs about SeekingSync (43_frame_fsm.md R244): the comparisons decide the next match count or that the preamble is
complete, and `FSM.SEEK` does what they decide. -/

namespace Sys2Proof.Proofs

open Sys2Proof.Machine

variable {s : State} {b : Byte}

theorem exec_fsmSeek_of_complete (hst : s.st = .seekingSync) (hmatch : syncMatch s.m b = none) :
    exec (.fsmSeek b) s = .next s.preambleComplete := by
  simp only [exec, execFsmSeek, hst, if_true, hmatch]

theorem exec_fsmSeek_of_count {k : BitVec 2} (hst : s.st = .seekingSync) (hmatch : syncMatch s.m b = some k) :
    exec (.fsmSeek b) s = .next { s with m := k } := by
  simp only [exec, execFsmSeek, hst, if_true, hmatch]

/-- The complete preamble field by field: three bytes of `buf`, five registers and `st`; every other field is kept. -/
theorem preambleComplete_eq (s : State) : s.preambleComplete =
    { s with buf := ((s.buf.write 0 0xAA).write 1 0x44).write 2 0x12
             n := 3, crcAcc := 0xB34323FF, m := 0, cnt := 0, st := .readingHeader } := rfl

/-- Settles O23: one case for each branch of the comparisons. -/
theorem seekByteTransition : Obligations.SeekByteTransition := by
  intro s b hst
  split_ifs with hcomplete hsecond hfirst
  · have hmatch : syncMatch s.m b = none := by rw [syncMatch, if_pos hcomplete]
    rw [exec_fsmSeek_of_complete hst hmatch, preambleComplete_eq]
  · have hmatch : syncMatch s.m b = some 2 := by rw [syncMatch, if_neg hcomplete, if_pos hsecond]
    exact exec_fsmSeek_of_count hst hmatch
  · have hmatch : syncMatch s.m b = some 1 := by rw [syncMatch, if_neg hcomplete, if_neg hsecond, if_pos hfirst]
    exact exec_fsmSeek_of_count hst hmatch
  · have hmatch : syncMatch s.m b = some 0 := by rw [syncMatch, if_neg hcomplete, if_neg hsecond, if_neg hfirst]
    exact exec_fsmSeek_of_count hst hmatch

end Sys2Proof.Proofs
end

section
/-! Proofs about ReadingHeader (43_frame_fsm.md R248, R249): the header bytes before the last one are stored and absorbed; the
last one is stored and absorbed too, and then the two header checks read the stored header. -/

namespace Sys2Proof.Proofs

open Sys2Proof.Machine Sys2Proof.Laws

variable {s : State} {b : Byte}

theorem exec_fsmHdr (hst : s.st = .readingHeader) (hcnt : s.cnt.toNat < 24) :
    exec (.fsmHdr b) s = .next
      { s with
        buf := s.buf.write (headerAddr s.cnt.toNat) b
        n := s.n + 1, crcAcc := crc32Step s.crcAcc b, cnt := s.cnt + 1 } :=
  if_pos ⟨hst, decide_eq_true hcnt⟩

/-- Settles O27: `FSM.HDR` with the header's first address written as 3. -/
theorem headerByteTransition : Obligations.HeaderByteTransition := by
  intro s b hst hcnt
  rw [exec_fsmHdr hst (Nat.lt_succ_of_le hcnt), headerAddr]

theorem lengthAllowed_iff (p : Config.Params) (ml : Half) :
    lengthAllowed p ml = true ↔ ml.toNat ≤ p.maxPayloadLen.toNat :=
  decide_eq_true_iff

/-- The completed header field by field. -/
theorem headerComplete_eq (s : State) (b : Byte) : s.headerComplete b =
    { s with buf := s.buf.write 27 b, n := 28, crcAcc := crc32Step s.crcAcc b } := rfl

/-- What `FSM.HDR.LAST` does, in terms of the two fields it checks in the completed header: header length and message
length. -/
theorem exec_fsmHdrLast {t : State} (hst : s.st = .readingHeader) (hcnt : 24 ≤ s.cnt.toNat) (ht : t = s.headerComplete b) :
    exec (.fsmHdrLast b) s =
      if validateHeaderLength (t.readByte 3) 25 ∧ lengthAllowed t.cfg (t.memRead 8 2) then
        .next { t with
          L := t.memRead 8 2, cnt := 0
          st := if t.memRead 8 2 = 0 then .readingChecksum else .readingPayload }
      else raiseDrop .malformedHeader t := by
  have hmore : ¬ s.moreHeader = true := by simpa [State.moreHeader] using hcnt
  subst ht
  rw [← memRead_one]
  exact if_pos ⟨hst, hmore⟩

/-- Settles O28: the message length, read as a 16-bit value, is the number its two bytes are. -/
theorem headerCompleteTransition : Obligations.HeaderCompleteTransition := by
  intro s t b hst hcnt ht
  have hlast : 24 ≤ s.cnt.toNat := by simp [hcnt]
  have hlen : t.readByte 3 = 28 ↔ (t.readByte 3).toNat = 28 := (BitVec.toNat_inj (y := (28 : Byte))).symm
  have hml : t.memRead 8 2 = BitVec.ofNat 16 ((t.readByte 8).toNat + 256 * (t.readByte 9).toNat) := by
    apply BitVec.eq_of_toNat_eq
    rw [toNat_memRead_two, BitVec.toNat_ofNat, Nat.mod_eq_of_lt]
    omega
  have hzero : t.memRead 8 2 = 0 ↔ (t.readByte 8).toNat + 256 * (t.readByte 9).toNat = 0 := by
    rw [← toNat_memRead_two]
    exact (BitVec.toNat_inj (y := (0 : Half))).symm
  have hcfg : t.cfg = s.cfg := by rw [ht]
  rw [← headerComplete_eq] at ht
  rw [exec_fsmHdrLast hst hlast ht, raiseDrop_eq_afterDrop, apply_ite Host.Outcome.next]
  simp only [validateHeaderLength_25_iff, lengthAllowed_iff, hlen, hzero, toNat_memRead_two, hcfg, ← hml]

end Sys2Proof.Proofs
end

section
/-! Proofs about ReadingPayload and ReadingChecksum (43_frame_fsm.md R251, R253, R254): where `buf` has the address, the byte is
stored there; a payload byte is absorbed, a checksum byte goes to its place in `crc_rx`, and the 4th completes the frame. -/

namespace Sys2Proof.Proofs

open Sys2Proof.Machine Sys2Proof.Laws

variable {s : State} {b : Byte}

theorem inSpace_iff (s : State) (a : Nat) : s.inSpace a = true ↔ a < 32 + s.cfg.maxPayloadLen.toNat :=
  decide_eq_true_iff

/-- A store at an address `buf` has changes that byte of `buf` and keeps every other field. -/
theorem store_eq {a : Nat} (ha : a < 32 + s.cfg.maxPayloadLen.toNat) : s.store a b = { s with buf := s.buf.write a b } := by
  rw [store_inSpace b ((inSpace_iff s a).mpr ha), State.memWrite]

/-- What `FSM.PLD` does, in terms of the state with the byte stored, absorbed and counted. -/
theorem exec_fsmPld {t : State} (hst : s.st = .readingPayload)
    (ht : t = { (s.store (payloadAddr s.cnt.toNat) b).crcAbsorb b with n := s.n + 1 }) :
    exec (.fsmPld b) s =
      if s.cnt.toNat + 1 = s.L.toNat then .next { t with cnt := 0, st := .readingChecksum }
      else .next { t with cnt := s.cnt + 1 } := by
  subst ht
  exact if_pos hst

/-- Settles O30: the store at an address that exists writes `buf`. -/
theorem payloadByteTransition : Obligations.PayloadByteTransition := by
  intro s b hst haddr
  rw [exec_fsmPld hst rfl, apply_ite Host.Outcome.next, payloadAddr, store_eq haddr, State.crcAbsorb]

/-- The mask of `crc_rx`'s low byte, bit by bit. -/
theorem getLsbD_byteMask (i : Nat) : (0xFF : Word).getLsbD i = decide (i < 8) := by
  have hones : (0xFF : Word) = (BitVec.allOnes 8).setWidth 32 := rfl
  rw [hones, BitVec.getLsbD_setWidth, BitVec.getLsbD_allOnes, ← Bool.decide_and, decide_eq_decide]
  omega

/-- Setting byte `k` of the received checksum, bit by bit (10_state.md R27). -/
theorem getLsbD_setChecksumByte (rx : Word) (k : Nat) (b : Byte) {j : Nat} (hj : j < 32) :
    (setChecksumByte rx k b).getLsbD j =
      if 8 * k ≤ j ∧ j < 8 * k + 8 then b.getLsbD (j - 8 * k) else rx.getLsbD j := by
  simp only [setChecksumByte, BitVec.getLsbD_or, BitVec.getLsbD_and, BitVec.getLsbD_not, BitVec.getLsbD_shiftLeft,
    BitVec.getLsbD_setWidth, getLsbD_byteMask, hj]
  rcases Nat.lt_or_ge j (8 * k) with hbelow | hfrom
  · simp [hbelow, Nat.not_le.mpr hbelow]
  rcases Nat.lt_or_ge j (8 * k + 8) with hin | habove
  · have hbit : j - 8 * k < 8 := by omega
    have hbit32 : j - 8 * k < 32 := by omega
    simp [Nat.not_lt.mpr hfrom, hfrom, hin, hbit, hbit32]
  · have hbit : 8 ≤ j - 8 * k := by omega
    simp [Nat.not_lt.mpr hfrom, Nat.not_lt.mpr habove, Nat.not_lt.mpr hbit, BitVec.getLsbD_of_ge b _ hbit]

/-- What `FSM.CRC` does: the byte is stored, counted and put in its place in `crc_rx`. -/
theorem exec_fsmCrc (hst : s.st = .readingChecksum) (hcnt : s.cnt.toNat < 3) :
    exec (.fsmCrc b) s = .next
      { s.store (checksumAddr s.L + s.cnt.toNat) b with
        n := s.n + 1, cnt := s.cnt + 1, crcRx := setChecksumByte s.crcRx s.cnt.toNat b } :=
  if_pos ⟨hst, decide_eq_true hcnt⟩

/-- Settles O31: `crc_rx` after the byte is `setChecksumByte`. -/
theorem checksumByteTransition : Obligations.ChecksumByteTransition := by
  intro s b hst hcnt haddr
  refine ⟨setChecksumByte s.crcRx s.cnt.toNat b, ?next, fun k hk => getLsbD_setChecksumByte _ _ _ hk⟩
  rw [exec_fsmCrc hst (Nat.lt_succ_of_le hcnt), checksumAddr, store_eq haddr]

/-- The length of a whole frame in the 17 bits of `n`: no carry is lost. -/
theorem setWidth_add_32 (len : Half) : len.setWidth 17 + 32 = BitVec.ofNat 17 (32 + len.toNat) := by
  rw [Nat.add_comm, BitVec.ofNat_add, BitVec.ofNat_toNat]
  rfl

theorem checksumEqual_iff (rx acc : Word) : checksumEqual rx acc = true ↔ rx = acc := beq_iff_eq

/-- What `FSM.CRC.LAST` does, in terms of the state with the whole frame stored and the received checksum complete. -/
theorem exec_fsmCrcLast {t : State} (hst : s.st = .readingChecksum) (hcnt : 3 ≤ s.cnt.toNat)
    (ht : t = { s.store (checksumAddr s.L + 3) b with
      n := s.L.setWidth 17 + 32, crcRx := (b.setWidth 32 <<< 24) ^^^ s.crcRx }) :
    exec (.fsmCrcLast b) s =
      if checksumEqual t.crcRx s.crcAcc then .next { t with cnt := 0, st := .dispatching }
      else raiseDrop .checksumMismatch t := by
  have hmore : ¬ s.moreChecksum = true := by simpa [State.moreChecksum] using hcnt
  subst ht
  exact if_pos ⟨hst, hmore⟩

/-- Settles O32: the last checksum byte's address is 31 + L, which exists because L is within the bound. -/
theorem checksumCompleteTransition : Obligations.ChecksumCompleteTransition := by
  intro s t b hst hcnt hL ht
  have hlast : 3 ≤ s.cnt.toNat := by simp [hcnt]
  have haddr : checksumAddr s.L + 3 = 31 + s.L.toNat := by rw [checksumAddr]; omega
  have hspace : 31 + s.L.toNat < 32 + s.cfg.maxPayloadLen.toNat := by omega
  rw [← setWidth_add_32] at ht
  have hstored : t = { s.store (checksumAddr s.L + 3) b with
      n := s.L.setWidth 17 + 32, crcRx := (b.setWidth 32 <<< 24) ^^^ s.crcRx } := by
    rw [haddr, store_eq hspace, ht]
  simp only [exec_fsmCrcLast hst hlast hstored, checksumEqual_iff, raiseDrop_eq_afterDrop, apply_ite Host.Outcome.next]

end Sys2Proof.Proofs
end

section
/-! Proofs about Dispatching (43_frame_fsm.md R256; 42_payload_decoder.md R183, R184, R236): what `decode_payload` does for each
message ID and length, and the event `FSM.DISP` ends the frame with. -/

namespace Sys2Proof.Proofs

open Sys2Proof.Machine

variable {id len : Half} {s : State} {use : Body → Result}

theorem dispatchPayload_bestpos (hid : id = 42) (hlen : len = 72) :
    dispatchPayload id len s use = use (.positionFix (decodeBestpos s)) := by
  subst hid hlen
  rfl

theorem dispatchPayload_bestvel (hid : id = 99) (hlen : len = 44) :
    dispatchPayload id len s use = use (.velocityFix (decodeBestvel s)) := by
  subst hid hlen
  rfl

/-- A length other than the decoder's drops the frame (R236). -/
theorem dispatchPayload_wrongSize (h : id = 42 ∧ len ≠ 72 ∨ id = 99 ∧ len ≠ 44) :
    dispatchPayload id len s use = raiseDrop .payloadSizeMismatch s := by
  rcases h with ⟨rfl, hlen⟩ | ⟨rfl, hlen⟩
  · exact if_neg fun h => hlen (BitVec.eq_of_toNat_eq h)
  · exact if_neg fun h => hlen (BitVec.eq_of_toNat_eq h)

theorem dispatchPayload_unrecognized (hpos : id ≠ 42) (hvel : id ≠ 99) :
    dispatchPayload id len s use = use (.unrecognized id) := by
  rw [dispatchPayload, if_neg hpos, if_neg hvel]

theorem endFrame_emit_frame (hdr : Header) (body : Body) (s : State) :
    (s.emit (.frame hdr body)).endFrame = s.afterFrame hdr body := rfl

/-- `FSM.DISP` in Dispatching: whatever body `decode_payload` gives goes into a Frame event that ends the frame. -/
theorem exec_fsmDisp (hst : s.st = .dispatching) :
    exec .fsmDisp s =
      dispatchPayload s.header.f1 s.L s fun body => .next (s.afterFrame s.header body) := by
  simp only [exec, execFsmDisp, if_pos hst, endFrame_emit_frame]

/-- Settles O33: one case for each decoder, the wrong sizes, and the other message IDs. -/
theorem dispatchTransition : Obligations.DispatchTransition := by
  intro s hst
  rw [exec_fsmDisp hst, ← raiseDrop_eq_afterDrop]
  exact ⟨dispatchPayload_bestpos, dispatchPayload_bestvel, dispatchPayload_wrongSize, dispatchPayload_unrecognized⟩

end Sys2Proof.Proofs
end

section
/-! Proofs about the encoding (30_encoding.md R90, R91, R98, R107, R120; log 9): each operand behind an operation's word is taken
off again by the decoder, and every operation a word decodes to is well formed and of the format decoded. -/

namespace Sys2Proof.Proofs

open Sys2Proof.Laws

variable {rest : List Byte} {f : List Byte → List Byte → Decoded}

/-! ### Taking back an encoded operand -/

theorem takeWord_one (b : Byte) (rest : List Byte) (f : BitVec (8 * 1) → List Byte → Decoded) :
    takeWord 1 (b :: rest) f = f b rest := by
  simp [takeWord]

theorem toNat_ofNat_of_fitsCount {k : Nat} (h : fitsCount k = true) : (BitVec.ofNat (8 * 4) k).toNat = k := by
  rw [BitVec.toNat_ofNat]
  exact Nat.mod_eq_of_lt (of_decide_eq_true h)

theorem takeSeq_encodeSeq {d : List Byte} (h : fitsCount d.length = true) :
    takeSeq (encodeSeq d ++ rest) f = f d rest := by
  have hlen := toNat_ofNat_of_fitsCount h
  have htake := takeWord_leBytes 4 (BitVec.ofNat (8 * 4) d.length) (d ++ rest)
  rw [hlen] at htake
  rw [takeSeq, encodeSeq, List.append_assoc, htake, hlen]
  simp

theorem takeAddr_leBytes {a : Addr} (h : a.inRange = true) (f : Addr → List Byte → Decoded) :
    takeAddr (leBytes 3 a.toNat ++ rest) f = f a rest := by
  have hwide : (a.setWidth (8 * 3)).toNat = a.toNat := BitVec.toNat_setWidth_of_le (by omega)
  have htake := takeWord_leBytes 3 (a.setWidth (8 * 3)) rest
  rw [hwide] at htake
  have hback : (a.setWidth (8 * 3)).setWidth 17 = a := by
    rw [BitVec.setWidth_setWidth_of_le a (by omega), BitVec.setWidth_eq]
  rw [takeAddr, htake, hwide, if_pos (of_decide_eq_true h), hback]

/-! ### The first byte of an FSM word selects the row's decoder -/

theorem decodeFsm_byteRow (st : SeqState) (last : Bool) :
    decodeFsm (fsmByte st 0 last :: rest) = decodeFsmByte st.code.toNat last rest := by
  rw [decodeFsm, takeWord_one]
  cases st <;> cases last <;> rfl

theorem decodeFsm_eosRow (st : SeqState) :
    decodeFsm (fsmByte st 1 false :: rest) = decodeFsmEos st.code.toNat rest := by
  rw [decodeFsm, takeWord_one]
  cases st <;> rfl

theorem decodeFsm_stopRow : decodeFsm (fsmByte .seekingSync 2 false :: rest) = .ok .fsmStop rest := by
  rw [decodeFsm, takeWord_one]
  rfl

theorem decodeFsm_resetRow : decodeFsm (fsmByte .seekingSync 3 false :: rest) = .ok .fsmReset rest := by
  rw [decodeFsm, takeWord_one]
  rfl

theorem decodeFsm_dropRow (reason : Reason) :
    decodeFsm (fsmByte .seekingSync 4 false :: reason.code.setWidth 8 :: rest) = .ok (.fsmDrop reason) rest := by
  rw [decodeFsm, takeWord_one]
  change decodeFsmDrop _ = _
  rw [decodeFsmDrop, takeWord_one]
  cases reason <;> rfl

theorem decodeFunc_cons (selector : Byte) : decodeFunc (selector :: rest) = decodeFuncRow selector.toNat rest :=
  takeWord_one selector rest _

/-- The preamble is the little-endian word `0x1244AA` (R91). -/
theorem encode_sync : encode .sync = leBytes 3 (0x1244AA : BitVec 24).toNat := rfl

/-! ### Decoding an encoding, format by format -/

theorem decode_encode_sync : decodeSync (encode .sync ++ rest) = .ok .sync rest := by
  rw [decodeSync, encode_sync, takeWord_leBytes 3 0x1244AA, if_pos rfl]

theorem decode_encode_msgid {i : Instr} (hf : i.format = .wireMsgid) (hwf : i.wellFormed = true) :
    decodeMsgid (encode i ++ rest) = .ok i rest := by
  cases i <;> cases hf
  case pldBestpos => exact takeWord_leBytes 2 42 rest _
  case pldBestvel => exact takeWord_leBytes 2 99 rest _
  case pldUnrec id =>
    obtain ⟨hpos, hvel⟩ : id ≠ 42 ∧ id ≠ 99 := by simpa [Instr.wellFormed] using hwf
    rw [decodeMsgid, encode, takeWord_leBytes 2 id, if_neg hpos, if_neg hvel]

theorem decode_encode_fsm {i : Instr} (hf : i.format = .fsm) : decodeFsm (encode i ++ rest) = .ok i rest := by
  cases i <;> cases hf <;>
    simp only [encode, List.cons_append, List.nil_append, decodeFsm_byteRow, decodeFsm_eosRow, decodeFsm_stopRow,
      decodeFsm_resetRow, decodeFsm_dropRow, SeqState.code, BitVec.reduceToNat, decodeFsmByte, decodeFsmEos, takeWord_one]

/-- An operand with a range of its own is in it when the operation is well formed; every other operand is taken back as it is. -/
theorem decode_encode_func {i : Instr} (hf : i.format = .func) (hwf : i.wellFormed = true) :
    decodeFunc (encode i ++ rest) = .ok i rest := by
  cases i <;> cases hf <;>
    simp only [encode, List.cons_append, List.append_assoc, List.nil_append, decodeFunc_cons, BitVec.reduceToNat,
      decodeFuncRow, takeWord_leBytes, takeWord_one]
  case crcCompute d => rw [takeSeq_encodeSeq hwf]
  case crcVerify d x => rw [takeSeq_encodeSeq hwf, takeWord_leBytes]
  case extU8 a => rw [takeAddr_leBytes hwf]
  case extI8 a => rw [takeAddr_leBytes hwf]
  case extU16 a => rw [takeAddr_leBytes hwf]
  case extU32 a => rw [takeAddr_leBytes hwf]
  case extI32 a => rw [takeAddr_leBytes hwf]
  case extF32 a => rw [takeAddr_leBytes hwf]
  case extF64 a => rw [takeAddr_leBytes hwf]
  case hdrParse h =>
    have hlen : h.length ≤ 25 := of_decide_eq_true hwf
    have hfits : fitsCount h.length = true := decide_eq_true (by omega)
    rw [takeSeq_encodeSeq hfits, if_pos hlen]
  case hdrValidate hl c =>
    have hc : (BitVec.ofNat (8 * 4) c).toNat = c := toNat_ofNat_of_fitsCount hwf
    have htake := takeWord_leBytes 4 (BitVec.ofNat (8 * 4) c) rest fun c r => .ok (.hdrValidate hl c.toNat) r
    rwa [hc] at htake

/-- Settles O1, format by format. -/
theorem decodeEncodeRoundTrip : Obligations.DecodeEncodeRoundTrip := by
  intro i rest hwf
  rcases hf : i.format with _ | _ | _ | _
  case wireSync => cases i <;> cases hf; exact decode_encode_sync
  case wireMsgid => exact decode_encode_msgid hf hwf
  case fsm => exact decode_encode_fsm hf
  case func => exact decode_encode_func hf hwf

/-! ### What a decoded word was -/

/-- An operand that was taken off the front stood there as its bytes. -/
theorem takeWord_eq_ok {k : Nat} {bs : List Byte} {f : BitVec (8 * k) → List Byte → Decoded} {i : Instr}
    (h : takeWord k bs f = .ok i rest) : ∃ v r, bs = leBytes k v.toNat ++ r ∧ f v r = .ok i rest := by
  unfold takeWord at h
  split at h
  case isTrue hlen =>
    have hfit : le (bs.take k) < 2 ^ (8 * k) := by
      have hlt := le_lt (bs.take k)
      rwa [List.length_take_of_le hlen, show (256 : Nat) = 2 ^ 8 from rfl, ← pow_mul] at hlt
    have hbytes := leBytes_le (bs.take k)
    rw [List.length_take_of_le hlen] at hbytes
    refine ⟨_, _, ?_, h⟩
    rw [BitVec.toNat_ofNat, Nat.mod_eq_of_lt hfit, hbytes, List.take_append_drop]
  case isFalse => cases h

/-- Whatever operation decoding gives has the property. -/
def Yields (P : Instr → Prop) (d : Decoded) : Prop := ∀ i rest, d = .ok i rest → P i

section Yields

variable {P : Instr → Prop} {bs : List Byte}

theorem yields_ok {i : Instr} (h : P i) : Yields P (.ok i rest) := by
  rintro _ _ ⟨⟩
  exact h

theorem yields_reject {r : Reject} : Yields P (.reject r) := nofun

theorem yields_takeWord {k : Nat} {f : BitVec (8 * k) → List Byte → Decoded} (h : ∀ v r, Yields P (f v r)) :
    Yields P (takeWord k bs f) := by
  intro i rest hok
  obtain ⟨v, r, -, hf⟩ := takeWord_eq_ok hok
  exact h v r i rest hf

theorem yields_takeAddr {f : Addr → List Byte → Decoded} (h : ∀ a r, a.inRange = true → Yields P (f a r)) :
    Yields P (takeAddr bs f) := by
  refine yields_takeWord fun a r => ?_
  split
  case isTrue ha =>
    have hnarrow : (a.setWidth 17).toNat ≤ 65566 := by
      rw [BitVec.toNat_setWidth]
      omega
    exact h _ _ (decide_eq_true hnarrow)
  case isFalse => exact yields_reject

theorem yields_takeSeq (h : ∀ d r, fitsCount d.length = true → Yields P (f d r)) : Yields P (takeSeq bs f) := by
  refine yields_takeWord fun k r => ?_
  split
  case isTrue hlen =>
    have hfits : (r.take k.toNat).length < 4294967296 := by
      rw [List.length_take_of_le hlen]
      exact k.isLt
    exact h _ _ (decide_eq_true hfits)
  case isFalse => exact yields_reject

end Yields

/-- Well formed, and of the format. -/
def WellFormedIn (f : Format) (i : Instr) : Prop := i.wellFormed = true ∧ i.format = f

theorem decodeSync_yields (bs : List Byte) : Yields (WellFormedIn .wireSync) (decodeSync bs) := by
  refine yields_takeWord fun w r => ?_
  split
  · exact yields_ok ⟨rfl, rfl⟩
  · exact yields_reject

theorem decodeMsgid_yields (bs : List Byte) : Yields (WellFormedIn .wireMsgid) (decodeMsgid bs) := by
  refine yields_takeWord fun id r => ?_
  split_ifs with hpos hvel
  · exact yields_ok ⟨rfl, rfl⟩
  · exact yields_ok ⟨rfl, rfl⟩
  · exact yields_ok ⟨Bool.and_eq_true_iff.mpr ⟨bne_iff_ne.mpr hpos, bne_iff_ne.mpr hvel⟩, rfl⟩

theorem decodeFsmByte_yields (state : Nat) (last : Bool) (bs : List Byte) :
    Yields (WellFormedIn .fsm) (decodeFsmByte state last bs) := by
  unfold decodeFsmByte
  split
  iterate 6 exact yields_takeWord fun _ _ => yields_ok ⟨rfl, rfl⟩
  iterate 2 exact yields_ok ⟨rfl, rfl⟩
  iterate 3 exact yields_reject

theorem decodeFsmEos_yields (state : Nat) (bs : List Byte) : Yields (WellFormedIn .fsm) (decodeFsmEos state bs) := by
  unfold decodeFsmEos
  split
  iterate 4 exact yields_ok ⟨rfl, rfl⟩
  iterate 3 exact yields_reject

theorem decodeFsmStop_yields (state : Nat) (bs : List Byte) : Yields (WellFormedIn .fsm) (decodeFsmStop state bs) := by
  unfold decodeFsmStop
  split
  · exact yields_ok ⟨rfl, rfl⟩
  iterate 3 exact yields_reject

theorem decodeFsmDrop_yields (bs : List Byte) : Yields (WellFormedIn .fsm) (decodeFsmDrop bs) := by
  refine yields_takeWord fun c r => ?_
  split
  · exact yields_ok ⟨rfl, rfl⟩
  · exact yields_reject

theorem decodeFsm_yields (bs : List Byte) : Yields (WellFormedIn .fsm) (decodeFsm bs) := by
  refine yields_takeWord fun w r => ?_
  split
  · split
    · exact decodeFsmByte_yields _ _ _
    · exact decodeFsmEos_yields _ _
    · exact decodeFsmStop_yields _ _
    · exact yields_ok ⟨rfl, rfl⟩
    · exact decodeFsmDrop_yields _
    iterate 4 exact yields_reject
  · exact yields_reject

theorem decodeFuncRow_yields (selector : Nat) (bs : List Byte) :
    Yields (WellFormedIn .func) (decodeFuncRow selector bs) := by
  unfold decodeFuncRow
  split
  -- CRC.BIT, CRC.LOOP8, CRC.STEP
  iterate 2 exact yields_takeWord fun _ _ => yields_ok ⟨rfl, rfl⟩
  · exact yields_takeWord fun _ _ => yields_takeWord fun _ _ => yields_ok ⟨rfl, rfl⟩
  -- CRC.COMPUTE, CRC.VERIFY, CRC.CLR, CRC.ABSORB
  · exact yields_takeSeq fun _ _ hfits => yields_ok ⟨hfits, rfl⟩
  · exact yields_takeSeq fun _ _ hfits => yields_takeWord fun _ _ => yields_ok ⟨hfits, rfl⟩
  · exact yields_ok ⟨rfl, rfl⟩
  · exact yields_takeWord fun _ _ => yields_ok ⟨rfl, rfl⟩
  -- the extractors
  iterate 7 exact yields_takeAddr fun _ _ ha => yields_ok ⟨ha, rfl⟩
  -- HDR.PARSE, HDR.VALIDATE
  · refine yields_takeSeq fun h r _ => ?_
    split
    case isTrue hlen => exact yields_ok ⟨decide_eq_true hlen, rfl⟩
    case isFalse => exact yields_reject
  · exact yields_takeWord fun _ _ => yields_takeWord fun c _ => yields_ok ⟨decide_eq_true c.isLt, rfl⟩
  -- PLD.DISPATCH, PLD.FIXQ, PLD.COV, PLD.SATS, PLD.VX, PLD.VY
  iterate 2 exact yields_takeWord fun _ _ => yields_takeWord fun _ _ => yields_ok ⟨rfl, rfl⟩
  · exact yields_takeWord fun _ _ => yields_takeWord fun _ _ => yields_takeWord fun _ _ => yields_ok ⟨rfl, rfl⟩
  iterate 3 exact yields_takeWord fun _ _ => yields_takeWord fun _ _ => yields_ok ⟨rfl, rfl⟩
  · exact yields_reject

/-- Settles O2, format by format. -/
theorem decodedOperationsAreWellFormed : Obligations.DecodedOperationsAreWellFormed := by
  intro f bs rest i hok
  cases f
  case wireSync => exact decodeSync_yields bs i rest hok
  case wireMsgid => exact decodeMsgid_yields bs i rest hok
  case fsm => exact decodeFsm_yields bs i rest hok
  case func => exact yields_takeWord (fun sel r => decodeFuncRow_yields sel.toNat r) i rest hok

/-! ### The two wire formats -/

/-- Settles O3: the word of a wire format is the operand its decoder compares. -/
theorem wireWordsAreCanonical : Obligations.WireWordsAreCanonical := by
  rintro f bs rest i (rfl | rfl) hok
  · rw [decode, decodeSync] at hok
    obtain ⟨w, r, rfl, hw⟩ := takeWord_eq_ok hok
    split_ifs at hw with hsync
    cases hw
    rw [hsync, encode_sync]
  · rw [decode, decodeMsgid] at hok
    obtain ⟨id, r, rfl, hid⟩ := takeWord_eq_ok hok
    split_ifs at hid with hpos hvel
    · cases hid
      rw [hpos]
      rfl
    · cases hid
      rw [hvel]
      rfl
    · cases hid
      rw [encode]

/-- A 16-bit value is a number below `2 ^ 16` when that number's pattern is. -/
theorem ofNat_eq_ofNat_iff {w j k : Nat} (hj : j < 2 ^ w) (hk : k < 2 ^ w) : BitVec.ofNat w j = BitVec.ofNat w k ↔ j = k := by
  rw [← BitVec.toNat_inj, BitVec.toNat_ofNat, BitVec.toNat_ofNat, Nat.mod_eq_of_lt hj, Nat.mod_eq_of_lt hk]

/-- Settles O4: the two bytes' value fits in 16 bits, so comparing the ID compares the value. -/
theorem messageIdSelectsDecoder : Obligations.MessageIdSelectsDecoder := by
  intro lo hi rest
  have hfit : lo.toNat + 256 * hi.toNat < 2 ^ 16 := by omega
  have htake : decode .wireMsgid (lo :: hi :: rest) =
      if BitVec.ofNat 16 (lo.toNat + 256 * hi.toNat) = 42 then .ok .pldBestpos rest
      else if BitVec.ofNat 16 (lo.toNat + 256 * hi.toNat) = 99 then .ok .pldBestvel rest
      else .ok (.pldUnrec (BitVec.ofNat 16 (lo.toNat + 256 * hi.toNat))) rest := by
    simp [decode, decodeMsgid, takeWord]
  simp only [htake, BitVec.ofNat_eq_ofNat, ofNat_eq_ofNat_iff hfit (by decide : 42 < 2 ^ 16),
    ofNat_eq_ofNat_iff hfit (by decide : 99 < 2 ^ 16)]

/-- Settles O5: each word but the last two is its operation's encoding. -/
theorem specWordsDecode : Obligations.SpecWordsDecode :=
  ⟨decodeEncodeRoundTrip .sync [] rfl,
   decodeEncodeRoundTrip .pldBestpos [] rfl,
   decodeEncodeRoundTrip .pldBestvel [] rfl,
   decodeEncodeRoundTrip (.pldUnrec 298) [] rfl,
   decodeEncodeRoundTrip (.fsmSeek 0x5A) [] rfl,
   decodeEncodeRoundTrip (.fsmHdr 0x1C) [] rfl,
   decodeEncodeRoundTrip (.fsmPld 0x33) [] rfl,
   decodeEncodeRoundTrip (.fsmCrc 0xE2) [] rfl,
   decodeEncodeRoundTrip .fsmDisp [] rfl,
   decodeEncodeRoundTrip .fsmHalt [] rfl,
   by decide, by decide⟩

end Sys2Proof.Proofs
end

section
/-! Proofs about every operation: that it completes, what it delivers or stores, which event it can emit and from where, and what
it leaves as it was (43_frame_fsm.md R243, R258, R262; 60_exceptions.md R281 to R285; 20_memory.md R72). -/

namespace Sys2Proof.Proofs

open Sys2Proof.Machine Sys2Proof.Laws

variable {s t : State} {b : Byte}

/-! ### FSM rows that their state selects, and rows that it does not -/

theorem exec_fsmSeekEos (hst : s.st = .seekingSync) : exec .fsmSeekEos s = .next s.halt := if_pos hst

theorem exec_fsmStop (hst : s.st = .seekingSync) : exec .fsmStop s = .next s.halt := if_pos hst

theorem exec_sync (hst : s.st = .seekingSync) : exec .sync s = .next s.preambleComplete := if_pos hst

theorem exec_fsmHdrEos (hst : s.st = .readingHeader) : exec .fsmHdrEos s = raiseDrop .malformedHeader s := if_pos hst

theorem exec_fsmPldEos (hst : s.st = .readingPayload) : exec .fsmPldEos s = raiseDrop .truncatedPayload s := if_pos hst

theorem exec_fsmCrcEos (hst : s.st = .readingChecksum) : exec .fsmCrcEos s = raiseDrop .truncatedChecksum s := if_pos hst

theorem halt_eq (s : State) : s.halt =
    { s with st := .halted, m := 0, cnt := 0, n := 0, L := 0, crcAcc := 0, crcRx := 0 } := rfl

/-- Settles O21. -/
theorem haltingRows : Obligations.HaltingRows := by
  refine fun s => ⟨fun hst => ?_, rfl⟩
  rw [exec_fsmSeekEos hst, exec_fsmStop hst, halt_eq]
  exact ⟨rfl, rfl⟩

/-- Settles O29: each `EOS` row is `raise Drop` with its section's reason. -/
theorem endOfStreamDropsTheFrame : Obligations.EndOfStreamDropsTheFrame := by
  intro s
  simp only [← raiseDrop_eq_afterDrop]
  exact ⟨exec_fsmHdrEos, exec_fsmPldEos, exec_fsmCrcEos⟩

/-- The sequencer state and the `cnt` condition a row is selected in (R243, R264); the other rows run in any state. -/
def RowSelected (s : State) : Instr → Prop
  | .sync | .fsmSeek _ | .fsmSeekEos | .fsmStop => s.st = .seekingSync
  | .fsmHdr _ => s.st = .readingHeader ∧ s.moreHeader = true
  | .fsmHdrLast _ => s.st = .readingHeader ∧ ¬ s.moreHeader = true
  | .fsmHdrEos => s.st = .readingHeader
  | .fsmPld _ | .fsmPldEos => s.st = .readingPayload
  | .fsmCrc _ => s.st = .readingChecksum ∧ s.moreChecksum = true
  | .fsmCrcLast _ => s.st = .readingChecksum ∧ ¬ s.moreChecksum = true
  | .fsmCrcEos => s.st = .readingChecksum
  | .fsmDisp => s.st = .dispatching
  | _ => True

theorem exec_of_not_rowSelected {i : Instr} (h : ¬ RowSelected s i) : exec i s = .next s := by
  cases i
  case sync | fsmSeek | fsmSeekEos | fsmStop | fsmHdr | fsmHdrLast | fsmHdrEos | fsmPld | fsmPldEos | fsmCrc | fsmCrcLast |
    fsmCrcEos | fsmDisp => exact if_neg h
  all_goals exact absurd trivial h

theorem le_of_not_moreHeader (h : ¬ s.moreHeader = true) : 24 ≤ s.cnt.toNat := by simpa [State.moreHeader] using h

theorem le_of_not_moreChecksum (h : ¬ s.moreChecksum = true) : 3 ≤ s.cnt.toNat := by simpa [State.moreChecksum] using h

/-- Settles O22: in each clause the row is not selected. -/
theorem unselectedOperationsChangeNothing : Obligations.UnselectedOperationsChangeNothing := by
  intro s b
  have hmoreHeader : s.moreHeader = true ↔ s.cnt.toNat < 24 := decide_eq_true_iff
  have hmoreChecksum : s.moreChecksum = true ↔ s.cnt.toNat < 3 := decide_eq_true_iff
  refine ⟨fun h => ⟨?_, ?_, ?_, ?_⟩, fun h => ⟨?_, ?_, ?_⟩, fun h => ⟨?_, ?_⟩, fun h => ⟨?_, ?_, ?_⟩, fun h => ?_, fun h => ?_,
    fun h => ?_, fun h => ?_, fun h => ?_⟩ <;>
    exact exec_of_not_rowSelected (by simp [RowSelected, hmoreHeader, hmoreChecksum, h])

/-! ### Pure functions -/

/-- A FUNC or WIRE-MSGID operation that is no register operation and no dispatch delivers a value and does nothing else. -/
theorem exec_delivers {i : Instr} (hf : i.format = .func ∨ i.format = .wireMsgid) (hclr : i ≠ .crcClr)
    (habsorb : ∀ b, i ≠ .crcAbsorb b) (hdisp : ∀ id l, i ≠ .pldDispatch id l) (s : State) :
    ∃ v, exec i s = .next (s.deliver v) := by
  cases i
  case crcClr => exact absurd rfl hclr
  case crcAbsorb b => exact absurd rfl (habsorb b)
  case pldDispatch id l => exact absurd rfl (hdisp id l)
  all_goals rcases hf with hf | hf <;> cases hf
  all_goals exact ⟨_, rfl⟩

/-- Settles O37. -/
theorem functionsChangeOnlyTheResult : Obligations.FunctionsChangeOnlyTheResult := by
  intro i s t hf hclr habsorb hdisp h
  obtain ⟨v, hv⟩ := exec_delivers hf hclr habsorb hdisp s
  rw [hv] at h
  cases h
  rfl

/-! ### Events -/

/-- The state a drop with a reason is raised in. -/
def stateOfReason : Reason → SeqState
  | .malformedHeader => .readingHeader
  | .truncatedPayload => .readingPayload
  | .checksumMismatch => .readingChecksum
  | .truncatedChecksum => .readingChecksum
  | .payloadSizeMismatch => .dispatching

/-- The operation may raise the reason in the state: `FSM.DROP` and `PLD.DISPATCH` do in any. -/
def MayDrop (i : Instr) (s : State) (reason : Reason) : Prop :=
  i = .fsmDrop reason ∨ (reason = .payloadSizeMismatch ∧ ∃ id l, i = .pldDispatch id l) ∨ s.st = stateOfReason reason

/-- What an operation that goes from `s` to another state does to the event port: nothing, a reset, a drop it may raise, or the
Frame event of FSM.DISP. -/
inductive EventOrigin (i : Instr) (s : State) : State → Prop
  | kept {t : State} (h : t.evt = s.evt) : EventOrigin i s t
  | reset : EventOrigin i s s.resetBlock
  | drop {reason : Reason} (u : State) (h : MayDrop i s reason) : EventOrigin i s (u.afterDrop reason)
  | frame (body : Body) (hi : i = .fsmDisp) (hst : s.st = .dispatching) : EventOrigin i s (s.afterFrame s.header body)

/-- Every operation completes, and what it does to the event port has an origin. -/
theorem exec_completes (i : Instr) (s : State) : ∃ t, exec i s = .next t ∧ EventOrigin i s t := by
  by_cases hsel : RowSelected s i
  case neg => exact ⟨s, exec_of_not_rowSelected hsel, .kept rfl⟩
  cases i
  case fsmReset => exact ⟨_, rfl, .reset⟩
  case fsmDrop reason => exact ⟨_, raiseDrop_eq_afterDrop reason s, .drop s (.inl rfl)⟩
  case fsmHdrEos => exact ⟨_, exec_fsmHdrEos hsel, .drop s (.inr (.inr hsel))⟩
  case fsmPldEos => exact ⟨_, exec_fsmPldEos hsel, .drop s (.inr (.inr hsel))⟩
  case fsmCrcEos => exact ⟨_, exec_fsmCrcEos hsel, .drop s (.inr (.inr hsel))⟩
  case sync => exact ⟨_, exec_sync hsel, .kept rfl⟩
  case fsmSeekEos => exact ⟨_, exec_fsmSeekEos hsel, .kept rfl⟩
  case fsmStop => exact ⟨_, exec_fsmStop hsel, .kept rfl⟩
  case fsmSeek b =>
    rcases hmatch : syncMatch s.m b with _ | k
    · exact ⟨_, exec_fsmSeek_of_complete hsel hmatch, .kept rfl⟩
    · exact ⟨_, exec_fsmSeek_of_count hsel hmatch, .kept rfl⟩
  case fsmHdr b => exact ⟨_, exec_fsmHdr hsel.1 (of_decide_eq_true hsel.2), .kept rfl⟩
  case fsmHdrLast b =>
    rw [exec_fsmHdrLast hsel.1 (le_of_not_moreHeader hsel.2) rfl]
    split
    · exact ⟨_, rfl, .kept rfl⟩
    · exact ⟨_, raiseDrop_eq_afterDrop _ _, .drop _ (.inr (.inr hsel.1))⟩
  case fsmPld b =>
    rw [exec_fsmPld hsel rfl]
    split <;> exact ⟨_, rfl, .kept (store_evt s _ b)⟩
  case fsmCrc b => exact ⟨_, exec_fsmCrc hsel.1 (of_decide_eq_true hsel.2), .kept (store_evt s _ b)⟩
  case fsmCrcLast b =>
    rw [exec_fsmCrcLast hsel.1 (le_of_not_moreChecksum hsel.2) rfl]
    split
    · exact ⟨_, rfl, .kept (store_evt s _ b)⟩
    · exact ⟨_, raiseDrop_eq_afterDrop _ _, .drop _ (.inr (.inr hsel.1))⟩
  case fsmDisp =>
    rw [exec_fsmDisp hsel]
    rcases dispatchPayload_cases s.header.f1 s.L s fun body => .next (s.afterFrame s.header body) with ⟨body, h⟩ | h
    · exact ⟨_, h, .frame body rfl hsel⟩
    · exact ⟨_, h, .drop s (.inr (.inr hsel))⟩
  case pldDispatch id l =>
    rcases dispatchPayload_cases id l s fun body => .next (s.deliver (.body body)) with ⟨body, h⟩ | h
    · exact ⟨_, h, .kept rfl⟩
    · exact ⟨_, h, .drop s (.inr (.inl ⟨rfl, id, l, rfl⟩))⟩
  all_goals exact ⟨_, rfl, .kept rfl⟩

theorem eventOrigin_of_exec {i : Instr} (h : exec i s = .next t) : EventOrigin i s t := by
  obtain ⟨u, hu, horigin⟩ := exec_completes i s
  rw [h] at hu
  cases hu
  exact horigin

/-- Settles O16: an event on a port that was empty has an origin, and its kind tells which. -/
theorem eventsComeFromTheirStates : Obligations.EventsComeFromTheirStates := by
  intro i s t o hevt h ho
  cases eventOrigin_of_exec h
  case kept hsame =>
    rw [hsame, hevt] at ho
    cases ho
  case reset => cases ho
  case drop reason u hmay =>
    cases ho
    cases reason <;> exact hmay
  case frame body hi hst =>
    cases ho
    exact ⟨hst, hi⟩

/-! ### What every operation leaves as it was -/

/-- Settles O13: an operation stays within the frame registers, ends the frame with an event, or resets the block. -/
theorem operationsLeaveEnvironment : Obligations.OperationsLeaveEnvironment := by
  intro i s t h
  rcases exec_cases i s t h with hwithin | ⟨e, u, hwithin, rfl⟩ | ⟨-, rfl⟩
  · rw [hwithin]
    exact ⟨rfl, rfl, rfl, rfl, rfl, rfl, rfl, rfl⟩
  · rw [hwithin]
    exact ⟨rfl, rfl, rfl, rfl, rfl, rfl, rfl, rfl⟩
  · exact ⟨rfl, rfl, rfl, rfl, rfl, rfl, rfl, rfl⟩

theorem output_eq_of_within (h : Within s t) : t.output = s.output := by
  rw [h]
  rfl

/-- Settles O14: only the end of a frame appends, and it appends its one event. -/
theorem atMostOneEventPerOperation : Obligations.AtMostOneEventPerOperation := by
  intro i s t hi h
  rcases exec_cases i s t h with hwithin | ⟨e, u, hwithin, rfl⟩ | ⟨hreset, -⟩
  · exact .inl (output_eq_of_within hwithin)
  · exact .inr ⟨e, by rw [output_endFrame, output_emit, output_eq_of_within hwithin]⟩
  · exact absurd hreset hi

theorem endFrame_betweenFrames (s : State) : s.endFrame.betweenFrames :=
  ⟨rfl, rfl, rfl, rfl, rfl, rfl, rfl⟩

/-- Settles O15: an event on a port that was empty comes from the end of a frame. -/
theorem everyEventEndsTheFrame : Obligations.EveryEventEndsTheFrame := by
  intro i s t hevt h hsome
  rcases exec_cases i s t h with hwithin | ⟨e, u, -, rfl⟩ | ⟨-, rfl⟩
  · refine absurd ?_ hsome
    rw [hwithin]
    exact hevt
  · exact endFrame_betweenFrames _
  · exact resetBlock_betweenFrames s

/-! ### Addresses -/

/-- A store past the end of `buf` changes nothing (log 11). -/
theorem store_eq_self {a : Nat} (ha : 32 + s.cfg.maxPayloadLen.toNat ≤ a) : s.store a b = s := by
  refine store_outside b ?_
  rw [← Bool.not_eq_true, inSpace_iff]
  omega

theorem exec_extU8_unwritten {a : Addr} (ha : s.buf.find a.toNat = none) :
    exec (.extU8 a) s = .next { s with result := .u8 (Config.unwrittenByte a.toNat) } := by
  rw [exec_extU8, memRead_one, State.readByte, ha]
  rfl

/-- Settles O35: past the end of `buf` a store is dropped from what the storing rows do. -/
theorem noFaultFromAnAddress : Obligations.NoFaultFromAnAddress := by
  refine ⟨fun i s => (exec_completes i s).imp fun t h => h.1, fun s b => ⟨fun a => exec_extU8_unwritten, ?pld, ?crc, ?last⟩⟩
  case pld =>
    intro hst ha
    rw [exec_fsmPld hst rfl, apply_ite Host.Outcome.next, payloadAddr, store_eq_self ha, State.crcAbsorb]
  case crc =>
    intro hst hcnt ha
    refine ⟨setChecksumByte s.crcRx s.cnt.toNat b, ?_, fun k hk => getLsbD_setChecksumByte _ _ _ hk⟩
    rw [exec_fsmCrc hst (Nat.lt_succ_of_le hcnt), checksumAddr, store_eq_self ha]
  case last =>
    intro t hst hcnt hL ht
    have hlast : 3 ≤ s.cnt.toNat := by simp [hcnt]
    have haddr : 32 + s.cfg.maxPayloadLen.toNat ≤ checksumAddr s.L + 3 := by rw [checksumAddr]; omega
    have hstored : t = { s.store (checksumAddr s.L + 3) b with
        n := s.L.setWidth 17 + 32, crcRx := (b.setWidth 32 <<< 24) ^^^ s.crcRx } := by
      rw [store_eq_self haddr, setWidth_add_32, ht]
    simp only [exec_fsmCrcLast hst hlast hstored, checksumEqual_iff, raiseDrop_eq_afterDrop, apply_ite Host.Outcome.next]

theorem readByte_preambleComplete {a : Nat} (h : 3 ≤ a) : s.preambleComplete.readByte a = s.readByte a := by
  have h0 : a ≠ 0 := by omega
  have h1 : a ≠ 1 := by omega
  have h2 : a ≠ 2 := by omega
  rw [State.readByte, preambleComplete_buf, find_write_other _ _ h2, find_write_other _ _ h1, find_write_other _ _ h0,
    State.readByte]

/-- What an operation does to `buf`: nothing, the preamble's three bytes, or one byte at its row's address. -/
inductive BufChange (s t : State) : Instr → Prop
  | kept {i : Instr} (h : t.buf = s.buf) : BufChange s t i
  | sync (h : t.buf = s.preambleComplete.buf) : BufChange s t .sync
  | seek {b : Byte} (h : t.buf = s.preambleComplete.buf) : BufChange s t (.fsmSeek b)
  | hdr {b : Byte} (h : t.buf = s.buf.write (headerAddr s.cnt.toNat) b) : BufChange s t (.fsmHdr b)
  | hdrLast {b : Byte} (h : t.buf = s.buf.write 27 b) : BufChange s t (.fsmHdrLast b)
  | pld {b : Byte} (h : t.buf = (s.store (payloadAddr s.cnt.toNat) b).buf) : BufChange s t (.fsmPld b)
  | crc {b : Byte} (h : t.buf = (s.store (checksumAddr s.L + s.cnt.toNat) b).buf) : BufChange s t (.fsmCrc b)
  | crcLast {b : Byte} (h : t.buf = (s.store (checksumAddr s.L + 3) b).buf) : BufChange s t (.fsmCrcLast b)

theorem bufChange_of_exec {i : Instr} (h : exec i s = .next t) : BufChange s t i := by
  by_cases hsel : RowSelected s i
  case neg =>
    cases (exec_of_not_rowSelected hsel).symm.trans h
    exact .kept rfl
  cases i
  case sync =>
    cases (exec_sync hsel).symm.trans h
    exact .sync rfl
  case fsmSeek b =>
    rcases hmatch : syncMatch s.m b with _ | k
    · cases (exec_fsmSeek_of_complete hsel hmatch).symm.trans h
      exact .seek rfl
    · cases (exec_fsmSeek_of_count hsel hmatch).symm.trans h
      exact .kept rfl
  case fsmHdr b =>
    cases (exec_fsmHdr hsel.1 (of_decide_eq_true hsel.2)).symm.trans h
    exact .hdr rfl
  case fsmHdrLast b =>
    rw [exec_fsmHdrLast hsel.1 (le_of_not_moreHeader hsel.2) rfl] at h
    split at h <;> cases h <;> exact .hdrLast rfl
  case fsmPld b =>
    rw [exec_fsmPld hsel rfl] at h
    split at h <;> cases h <;> exact .pld rfl
  case fsmCrc b =>
    cases (exec_fsmCrc hsel.1 (of_decide_eq_true hsel.2)).symm.trans h
    exact .crc rfl
  case fsmCrcLast b =>
    rw [exec_fsmCrcLast hsel.1 (le_of_not_moreChecksum hsel.2) rfl] at h
    split at h <;> cases h <;> exact .crcLast rfl
  case fsmSeekEos =>
    cases (exec_fsmSeekEos hsel).symm.trans h
    exact .kept rfl
  case fsmStop =>
    cases (exec_fsmStop hsel).symm.trans h
    exact .kept rfl
  case fsmHdrEos =>
    cases (exec_fsmHdrEos hsel).symm.trans h
    exact .kept rfl
  case fsmPldEos =>
    cases (exec_fsmPldEos hsel).symm.trans h
    exact .kept rfl
  case fsmCrcEos =>
    cases (exec_fsmCrcEos hsel).symm.trans h
    exact .kept rfl
  case fsmDisp =>
    rw [exec_fsmDisp hsel] at h
    rcases dispatchPayload_cases s.header.f1 s.L s fun body => .next (s.afterFrame s.header body) with ⟨body, hd⟩ | hd <;>
      cases hd.symm.trans h <;> exact .kept rfl
  case pldDispatch id l =>
    rcases dispatchPayload_cases id l s fun body => .next (s.deliver (.body body)) with ⟨body, hd⟩ | hd <;>
      cases hd.symm.trans h <;> exact .kept rfl
  all_goals
    cases h
    exact .kept rfl

/-- Settles O36: one case for each way to change `buf`. -/
theorem bufferChangesOnlyWhereARowStores : Obligations.BufferChangesOnlyWhereARowStores := by
  intro i s t a h
  cases bufChange_of_exec h
  case kept hbuf =>
    have hsame := readByte_congr hbuf a
    cases i
    case sync | fsmSeek | fsmHdr | fsmHdrLast | fsmPld | fsmCrc | fsmCrcLast => exact fun _ => hsame
    all_goals exact hsame
  case sync hbuf => exact fun ha => (readByte_congr hbuf a).trans (readByte_preambleComplete ha)
  case seek b hbuf => exact fun ha => (readByte_congr hbuf a).trans (readByte_preambleComplete ha)
  case hdr b hbuf => exact readByte_write_other hbuf
  case hdrLast b hbuf => exact readByte_write_other hbuf
  case pld b hbuf => exact fun ha => (readByte_congr hbuf a).trans (readByte_store_other s b ha)
  case crc b hbuf => exact fun ha => (readByte_congr hbuf a).trans (readByte_store_other s b ha)
  case crcLast b hbuf => exact fun ha => (readByte_congr hbuf a).trans (readByte_store_other s b ha)

end Sys2Proof.Proofs
end

section
/-! Proofs about one step (43_frame_fsm.md R242, R243, R257, R264; 30_encoding.md R114): what sampling leaves as it was, which
operation a sampled state selects, and what a step does when it selects one, waits for the sink, or waits for a byte. -/

namespace Sys2Proof.Proofs

open Sys2Proof.Machine Sys2Proof.Laws

variable {s t : State} {i : Instr}

/-! ### Sampling -/

@[simp] theorem sample_st (s : State) : s.sample.st = s.st := by rw [sample_frame]
@[simp] theorem sample_n (s : State) : s.sample.n = s.n := by rw [sample_frame]
@[simp] theorem sample_L (s : State) : s.sample.L = s.L := by rw [sample_frame]
@[simp] theorem sample_buf (s : State) : s.sample.buf = s.buf := by rw [sample_frame]
@[simp] theorem sample_evt (s : State) : s.sample.evt = s.evt := by rw [sample_frame]
@[simp] theorem sample_cursor (s : State) : s.sample.cursor = s.cursor := by rw [sample_frame]
@[simp] theorem sample_trace (s : State) : s.sample.trace = s.trace := by rw [sample_frame]

theorem sample_of_byte {b : Byte} {r : List Feed} (h : s.feed = .byte b :: r) : s.sample = s := by
  rw [State.sample, h]

theorem sample_of_nil (h : s.feed = []) : s.sample = s := by
  rw [State.sample, h]

/-! ### Selection -/

theorem nextByte_of_byte {b : Byte} {r : List Feed} (h : s.feed = .byte b :: r) : s.nextByte = some b := by
  rw [State.nextByte, h]

theorem feed_of_nextByte {b : Byte} (h : s.nextByte = some b) : ∃ r, s.feed = .byte b :: r := by
  unfold State.nextByte at h
  split at h <;> cases h
  exact ⟨_, ‹_›⟩

theorem nextByte_eq_none (h : ∀ b r, s.feed ≠ .byte b :: r) : s.nextByte = none := by
  rw [Option.eq_none_iff_forall_ne_some]
  intro b hb
  obtain ⟨r, hr⟩ := feed_of_nextByte hb
  exact h b r hr

section eosOrByte

variable {atEos : Instr} {onByte : Byte → Instr}

theorem eosOrByte_of_eos (h : s.eos = true) : s.eosOrByte atEos onByte = some atEos := if_pos h

theorem eosOrByte_of_byte {b : Byte} {r : List Feed} (heos : s.eos = false) (h : s.feed = .byte b :: r) :
    s.eosOrByte atEos onByte = some (onByte b) := by
  simp [State.eosOrByte, heos, nextByte_of_byte h]

theorem eosOrByte_eq_none (heos : s.eos = false) (h : ∀ b r, s.feed ≠ .byte b :: r) :
    s.eosOrByte atEos onByte = none := by
  simp [State.eosOrByte, heos, nextByte_eq_none h]

theorem eosOrByte_eq_some (h : s.eosOrByte atEos onByte = some i) :
    i = atEos ∨ ∃ b r, s.feed = .byte b :: r ∧ i = onByte b := by
  unfold State.eosOrByte at h
  split at h
  · cases h
    exact .inl rfl
  · obtain ⟨b, hb, rfl⟩ := Option.map_eq_some_iff.mp h
    obtain ⟨r, hr⟩ := feed_of_nextByte hb
    exact .inr ⟨b, r, hr, rfl⟩

end eosOrByte

theorem select_of_rst (h : s.rst = true) : s.select = some .fsmReset := if_pos h

/-! With `rst` low the state selects (R243). -/

section Select

variable (hrst : s.rst = false)

include hrst

theorem select_seekingSync (hst : s.st = .seekingSync) :
    s.select = if s.stopReq then some .fsmStop else s.eosOrByte .fsmSeekEos .fsmSeek := by
  simp [State.select, hrst, hst]

theorem select_readingHeader (hst : s.st = .readingHeader) :
    s.select = s.eosOrByte .fsmHdrEos fun b => if s.moreHeader then .fsmHdr b else .fsmHdrLast b := by
  simp [State.select, hrst, hst]

theorem select_readingPayload (hst : s.st = .readingPayload) : s.select = s.eosOrByte .fsmPldEos .fsmPld := by
  simp [State.select, hrst, hst]

theorem select_readingChecksum (hst : s.st = .readingChecksum) :
    s.select = s.eosOrByte .fsmCrcEos fun b => if s.moreChecksum then .fsmCrc b else .fsmCrcLast b := by
  simp [State.select, hrst, hst]

theorem select_dispatching (hst : s.st = .dispatching) : s.select = some .fsmDisp := by
  simp [State.select, hrst, hst]

theorem select_halted (hst : s.st = .halted) : s.select = some .fsmHalt := by
  simp [State.select, hrst, hst]

/-- `Stop` is looked at in SeekingSync only. -/
theorem select_stopReq (level : Bool) (hst : s.st ≠ .seekingSync) :
    { s with stopReq := level }.select = s.select := by
  rcases hst' : s.st with _ | _ | _ | _ | _ | _
  case seekingSync => exact absurd hst' hst
  case readingHeader => exact select_readingHeader hrst hst' ▸ select_readingHeader hrst rfl
  case readingPayload => exact select_readingPayload hrst hst' ▸ select_readingPayload hrst rfl
  case readingChecksum => exact select_readingChecksum hrst hst' ▸ select_readingChecksum hrst rfl
  case dispatching => exact select_dispatching hrst hst' ▸ select_dispatching hrst rfl
  case halted => exact select_halted hrst hst' ▸ select_halted hrst rfl

end Select

/-- Settles O8: the table row by row. -/
theorem sequencerSelectionTable : Obligations.SequencerSelectionTable := by
  refine fun s => ⟨select_of_rst, fun hrst => ⟨fun hst hstop => ?_, fun hst hstop heos => ?_, fun b r hst hstop heos hfeed => ?_,
    fun hst heos => ?_, fun b r hst heos hfeed => ?_, fun hst heos => ?_, fun b r hst heos hfeed => ?_, fun hst heos => ?_,
    fun b r hst heos hfeed => ?_, select_dispatching hrst, select_halted hrst, select_stopReq hrst⟩⟩
  · rw [select_seekingSync hrst hst, hstop, if_pos rfl]
  · rw [select_seekingSync hrst hst, hstop, if_neg Bool.false_ne_true, eosOrByte_of_eos heos]
  · rw [select_seekingSync hrst hst, hstop, if_neg Bool.false_ne_true, eosOrByte_of_byte heos hfeed]
  · rw [select_readingHeader hrst hst, eosOrByte_of_eos heos]
  · rw [select_readingHeader hrst hst, eosOrByte_of_byte heos hfeed]
    simp only [State.moreHeader, decide_eq_true_eq]
  · rw [select_readingPayload hrst hst, eosOrByte_of_eos heos]
  · rw [select_readingPayload hrst hst, eosOrByte_of_byte heos hfeed]
  · rw [select_readingChecksum hrst hst, eosOrByte_of_eos heos]
  · rw [select_readingChecksum hrst hst, eosOrByte_of_byte heos hfeed]
    simp only [State.moreChecksum, decide_eq_true_eq]

/-- An FSM row, and one that takes a byte only if the byte is there. -/
def Feasible (s : State) (i : Instr) : Prop :=
  i.format = .fsm ∧ (Instr.takesByte i = true → ∃ b r, s.feed = .byte b :: r)

theorem feasible_of_eosOrByte {atEos : Instr} {onByte : Byte → Instr} (h : s.eosOrByte atEos onByte = some i)
    (hatEos : atEos.format = .fsm ∧ Instr.takesByte atEos = false) (honByte : ∀ b, (onByte b).format = .fsm) :
    Feasible s i := by
  rcases eosOrByte_eq_some h with rfl | ⟨b, r, hfeed, rfl⟩
  · exact ⟨hatEos.1, fun htakes => absurd (hatEos.2.symm.trans htakes) Bool.false_ne_true⟩
  · exact ⟨honByte b, fun _ => ⟨b, r, hfeed⟩⟩

/-- The sequencer selects FSM rows (R264), and a row that takes a byte only when the byte is there. -/
theorem feasible_of_select (hsel : s.select = some i) : Feasible s i := by
  rcases hrst : s.rst with _ | _
  case true =>
    rw [select_of_rst hrst] at hsel
    cases hsel
    exact ⟨rfl, nofun⟩
  rcases hst : s.st with _ | _ | _ | _ | _ | _
  case seekingSync =>
    rw [select_seekingSync hrst hst] at hsel
    split at hsel
    · cases hsel
      exact ⟨rfl, nofun⟩
    · exact feasible_of_eosOrByte hsel ⟨rfl, rfl⟩ fun _ => rfl
  case readingHeader =>
    rw [select_readingHeader hrst hst] at hsel
    exact feasible_of_eosOrByte hsel ⟨rfl, rfl⟩ fun _ => by split <;> rfl
  case readingPayload =>
    rw [select_readingPayload hrst hst] at hsel
    exact feasible_of_eosOrByte hsel ⟨rfl, rfl⟩ fun _ => rfl
  case readingChecksum =>
    rw [select_readingChecksum hrst hst] at hsel
    exact feasible_of_eosOrByte hsel ⟨rfl, rfl⟩ fun _ => by split <;> rfl
  case dispatching =>
    cases (select_dispatching hrst hst).symm.trans hsel
    exact ⟨rfl, nofun⟩
  case halted =>
    cases (select_halted hrst hst).symm.trans hsel
    exact ⟨rfl, nofun⟩

/-! ### The step -/

/-- Settles O6. -/
theorem stepRunsOfferedOperation : Obligations.StepRunsOfferedOperation := by
  intro s w i rest hop hdec
  simp only [step, hop, State.runOp, hdec]

/-- A step that has no event to wait for, or is being reset, runs the sequencer's selection. -/
theorem step_of_select (hop : s.op = none) (hgo : s.sample.rst = true ∨ s.evt = none) (hsel : s.sample.select = some i) :
    step s = exec i (s.sample.consume i) := by
  have hgo' : (s.sample.rst || s.sample.evt.isNone) = true := by simpa using hgo
  rw [step_block hop, State.advance, if_pos hgo', State.runSelected, hsel]

/-- Settles O7: the state an operation runs on, written out. -/
theorem stepRunsSelectedOperation : Obligations.StepRunsSelectedOperation := by
  intro s i hop hgo hsel
  rw [step_of_select hop hgo hsel, State.consume, sample_cursor]

/-- Settles O9. -/
theorem waitingEventHoldsUpTheBlock : Obligations.WaitingEventHoldsUpTheBlock := by
  intro s o hop hevt hrst
  have hwait : ¬ (s.sample.rst || s.sample.evt.isNone) = true := by simp [hrst, hevt]
  have hover : s.sample.handOver = { s.sample with trace := s.trace ++ [o.event], evt := none } := by
    simp [State.handOver, State.output, hevt]
  rw [step_block hop, State.advance, if_neg hwait, hover, apply_ite Host.Outcome.next]

/-- A reading state with no byte and no end of stream selects nothing. -/
theorem select_eq_none (hrst : s.rst = false) (heos : s.eos = false) (hfeed : ∀ b r, s.feed ≠ .byte b :: r)
    (hst : s.st = .seekingSync ∧ s.stopReq = false ∨ s.st = .readingHeader ∨ s.st = .readingPayload ∨
      s.st = .readingChecksum) : s.select = none := by
  rcases hst with ⟨hst, hstop⟩ | hst | hst | hst
  · rw [select_seekingSync hrst hst, hstop, if_neg Bool.false_ne_true, eosOrByte_eq_none heos hfeed]
  · rw [select_readingHeader hrst hst, eosOrByte_eq_none heos hfeed]
  · rw [select_readingPayload hrst hst, eosOrByte_eq_none heos hfeed]
  · rw [select_readingChecksum hrst hst, eosOrByte_eq_none heos hfeed]

/-- Settles O10: the heads of the feed one by one, and the wait as a selection of nothing. -/
theorem waitingForAByteChangesNothing : Obligations.WaitingForAByteChangesNothing := by
  intro s
  refine ⟨sample_frame s, fun r h => ?_, fun level r h => ?_, fun level r h => ?_, fun ready r h => ?_,
    fun b r => sample_of_byte, sample_of_nil, fun hop hevt hrst heos hfeed hst => ?wait⟩
  case wait =>
    have hgo : (s.sample.rst || s.sample.evt.isNone) = true := by simp [hevt]
    rw [← sample_st s] at hst
    rw [step_block hop, State.advance, if_pos hgo, State.runSelected, select_eq_none hrst heos hfeed hst]
  all_goals rw [State.sample, h]

/-- Settles O11: Halted selects FSM.HALT, which takes no byte and changes nothing. -/
theorem haltedAcceptsNothing : Obligations.HaltedAcceptsNothing := by
  intro s hop hevt hrst hst
  have hsel : s.sample.select = some .fsmHalt := select_halted hrst ((sample_st s).trans hst)
  exact ⟨step_of_select hop (.inr hevt) hsel, sample_cursor s, fun b r => sample_of_byte⟩

/-- Settles O12: no operation moves the cursor or the feed, so a step moves them as its operation's consumption does. -/
theorem cursorNeverMovesBack : Obligations.CursorNeverMovesBack := by
  intro s t hop h
  rw [step_block hop] at h
  rcases advance_cases s.sample with ⟨i, hsel, -, hadv⟩ | ⟨-, -, -, hadv⟩ | ⟨o, -, -, -, hadv⟩ | ⟨o, -, -, -, hadv⟩
  · rw [hadv] at h
    obtain ⟨hfeed, hcursor, -⟩ := operationsLeaveEnvironment i _ t h
    rw [hfeed, hcursor, State.consume]
    split
    case isTrue htakes =>
      obtain ⟨b, r, hb⟩ := (feasible_of_select hsel).2 htakes
      exact .inr ⟨by rw [sample_cursor], b, by rw [hb, List.tail_cons]⟩
    case isFalse => exact .inl ⟨sample_cursor s, rfl⟩
  all_goals
    cases hadv.symm.trans h
    exact .inl ⟨sample_cursor s, rfl⟩

/-- Settles O19: every operation completes, and a step that runs none has a next state of its own. -/
theorem blockNeverStops : Obligations.BlockNeverStops := by
  intro s hdec
  rcases hop : s.op with _ | w
  · rw [State.stepsOn, step_block hop]
    rcases advance_cases s.sample with ⟨i, -, -, hadv⟩ | ⟨-, -, -, hadv⟩ | ⟨o, -, -, -, hadv⟩ | ⟨o, -, -, -, hadv⟩
    · rw [hadv]
      exact noFaultFromAnAddress.1 i _
    all_goals exact ⟨_, hadv⟩
  · obtain ⟨i, rest, hok⟩ := hdec w hop
    rw [State.stepsOn, stepRunsOfferedOperation s w i rest hop hok]
    exact noFaultFromAnAddress.1 i _

end Sys2Proof.Proofs
end

section
/-! Proofs about the CRC (40_crc_engine.md R131, R136 to R141): the register operations stream what `compute_crc32` folds; a byte
step is eight bit steps over the whole accumulator, which are linear and lose nothing. -/

namespace Sys2Proof.Proofs

open Sys2Proof.Machine Sys2Proof.Laws

/-! ### The register operations -/

theorem exec_crcClr (s : State) : exec .crcClr s = .next { s with crcAcc := 0 } := rfl

theorem exec_crcAbsorb (b : Byte) (s : State) : exec (.crcAbsorb b) s = .next { s with crcAcc := crc32Step s.crcAcc b } := rfl

/-- Settles O39. -/
theorem crcRegisterOperations : Obligations.CrcRegisterOperations :=
  fun s b => ⟨exec_crcClr s, exec_crcAbsorb b s⟩

/-- Absorbing bytes one after another folds the byte step from whatever the accumulator held. -/
theorem runOps_crcAbsorb (d : List Byte) (s : State) :
    runOps (d.map .crcAbsorb) s = .next { s with crcAcc := d.foldl crc32Step s.crcAcc } := by
  induction d generalizing s with
  | nil => rfl
  | cons b d ih => exact ih { s with crcAcc := crc32Step s.crcAcc b }

/-- Settles O40: after CRC.CLR the fold starts from 0. -/
theorem streamingEqualsFolding : Obligations.StreamingEqualsFolding :=
  fun s d => runOps_crcAbsorb d { s with crcAcc := 0 }

/-! ### The byte step as eight bit steps -/

theorem exec_crcBit (v : Word) (s : State) : exec (.crcBit v) s = .next (s.deliver (.u32 (crcBit v))) := rfl

theorem crcLoop8_xor (x y : Word) : crcLoop8 (x ^^^ y) = crcLoop8 x ^^^ crcLoop8 y := by
  simp only [crcLoop8, crcBit_xor]

/-- The bit step undoes a shift that brought in a 0 and lost no bit. -/
theorem crcBit_shiftLeft (v : Word) {k : Nat} (hk : k < 8) : crcBit ((v >>> 8) <<< (k + 1)) = (v >>> 8) <<< k := by
  have hlow : ((v >>> 8) <<< (k + 1)).getLsbD 0 = false := by simp
  rw [crcBit, hlow, if_neg Bool.false_ne_true]
  apply BitVec.eq_of_getLsbD_eq
  intro i hi
  have hsub : 1 + i - (k + 1) = i - k := by omega
  have hsucc : 1 + i < k + 1 ↔ i < k := by omega
  simp only [BitVec.getLsbD_ushiftRight, BitVec.getLsbD_shiftLeft, hi, hsub, hsucc]
  rcases Nat.lt_or_ge (1 + i) 32 with hin | hout
  · simp [hin]
  · simp [BitVec.getLsbD_of_ge v (8 + (i - k)) (by omega)]

/-- The bits above the low byte only move down. -/
theorem crcLoop8_highBytes (v : Word) : crcLoop8 ((v >>> 8) <<< 8) = v >>> 8 := by
  simp only [crcLoop8]
  rw [crcBit_shiftLeft v (k := 7) (by omega), crcBit_shiftLeft v (k := 6) (by omega), crcBit_shiftLeft v (k := 5) (by omega),
    crcBit_shiftLeft v (k := 4) (by omega), crcBit_shiftLeft v (k := 3) (by omega), crcBit_shiftLeft v (k := 2) (by omega),
    crcBit_shiftLeft v (k := 1) (by omega), crcBit_shiftLeft v (k := 0) (by omega), BitVec.shiftLeft_zero]

/-- A word is its bytes above the low one and its low byte. -/
theorem highBytes_xor_lowByte (v : Word) : ((v >>> 8) <<< 8) ^^^ (v.setWidth 8).setWidth 32 = v := by
  apply BitVec.eq_of_getLsbD_eq
  intro i hi
  rcases Nat.lt_or_ge i 8 with hlow | hhigh
  · simp [hlow, hi]
  · simp [hhigh, hi, Nat.not_lt.mpr hhigh, Nat.add_sub_cancel' hhigh]

/-- The one-loop form of the byte step (R139). -/
theorem crc32Step_eq_crcLoop8 (p : Word) (b : Byte) : crc32Step p b = crcLoop8 (p ^^^ b.setWidth 32) := by
  calc crc32Step p b
      = crcLoop8 ((p >>> 8) <<< 8) ^^^ crcLoop8 ((p.setWidth 8 ^^^ b).setWidth 32) := by
        rw [crc32Step, crcLoop8_highBytes]
    _ = crcLoop8 (((p >>> 8) <<< 8 ^^^ (p.setWidth 8).setWidth 32) ^^^ b.setWidth 32) := by
        rw [← crcLoop8_xor, BitVec.setWidth_xor, BitVec.xor_assoc]
    _ = crcLoop8 (p ^^^ b.setWidth 32) := by rw [highBytes_xor_lowByte]

/-- Settles O41. -/
theorem crcBitStepAndOneLoopForm : Obligations.CrcBitStepAndOneLoopForm := by
  intro s v p b
  refine ⟨?bit, crc32Step_eq_crcLoop8 p b⟩
  rw [exec_crcBit, deliver_eq, crcBit, poly]

/-! ### No byte step loses information -/

/-- The polynomial's top bit shows in a bit step's result whether the low bit was 1. -/
theorem getLsbD_crcBit_31 (v : Word) : (crcBit v).getLsbD 31 = v.getLsbD 0 := by
  have hpoly : poly.getLsbD 31 = true := by decide
  have htop : (v >>> 1).getLsbD 31 = false := by simp
  rcases hlow : v.getLsbD 0 with _ | _
  · rw [crcBit, hlow, if_neg Bool.false_ne_true, htop]
  · rw [crcBit, if_pos hlow, BitVec.getLsbD_xor, htop, hpoly, Bool.false_xor]

theorem eq_zero_of_crcBit_eq_zero {v : Word} (h : crcBit v = 0) : v = 0 := by
  have hlow : v.getLsbD 0 = false := by
    rw [← getLsbD_crcBit_31, h]
    rfl
  rw [crcBit, hlow, if_neg Bool.false_ne_true] at h
  apply BitVec.eq_of_getLsbD_eq
  intro i hi
  cases i with
  | zero => exact hlow
  | succ i =>
    have hbit : (v >>> 1).getLsbD i = (0 : Word).getLsbD i := by rw [h]
    rw [BitVec.getLsbD_ushiftRight, Nat.add_comm] at hbit
    simpa using hbit

theorem crcBit_injective : Function.Injective crcBit := by
  intro x y h
  have hzero : crcBit (x ^^^ y) = 0 := by
    rw [crcBit_xor, h, BitVec.xor_self]
    rfl
  exact BitVec.xor_eq_zero_iff.mp (eq_zero_of_crcBit_eq_zero hzero)

theorem crcLoop8_injective : Function.Injective crcLoop8 :=
  crcBit_injective.iterate 8

theorem crc32Step_left_injective (b : Byte) : Function.Injective (crc32Step · b) := by
  intro x y h
  simp only [crc32Step_eq_crcLoop8] at h
  simpa using crcLoop8_injective h

theorem crc32Step_right_injective (p : Word) : Function.Injective (crc32Step p) := by
  intro x y h
  simp only [crc32Step_eq_crcLoop8] at h
  have hwide : x.setWidth 32 = y.setWidth 32 := (BitVec.xor_right_inj p).mp (crcLoop8_injective h)
  simpa using congrArg (BitVec.setWidth 8) hwide

theorem foldl_crc32Step_injective (d : List Byte) : Function.Injective (d.foldl crc32Step) := by
  induction d with
  | nil => exact Function.injective_id
  | cons b d ih => exact ih.comp (crc32Step_left_injective b)

/-- Settles O42: the accumulators differ after the changed byte, and no later byte makes them equal. -/
theorem singleByteErrorsAreDetected : Obligations.SingleByteErrorsAreDetected := by
  intro before after x y hxy h
  simp only [computeCrc32, List.foldl_append, List.foldl_cons] at h
  exact hxy (crc32Step_right_injective _ (foldl_crc32Step_injective after h))

/-! ### The residue -/

/-- Absorbing the accumulator's own low byte shifts it out. -/
theorem crc32Step_lowByte (c : Word) : crc32Step c (BitVec.ofNat 8 c.toNat) = c >>> 8 := by
  have hzero : crcLoop8 0#32 = 0#32 := by decide
  rw [crc32Step, BitVec.ofNat_toNat, BitVec.xor_self, BitVec.setWidth_zero, hzero, BitVec.xor_zero]

/-- Absorbing the accumulator's own bytes, least significant first, shifts all of them out. -/
theorem foldl_crc32Step_leBytes (k : Nat) (c : Word) : (leBytes k c.toNat).foldl crc32Step c = c >>> (8 * k) := by
  induction k generalizing c with
  | zero => simp
  | succ k ih =>
    have hrest : c.toNat / 256 = (c >>> 8).toNat := by
      rw [BitVec.toNat_ushiftRight, Nat.shiftRight_eq_div_pow]
    rw [leBytes_succ, List.foldl_cons, crc32Step_lowByte, hrest, ih, ← BitVec.shiftRight_add]
    congr 1
    omega

/-- Settles O43: the checksum's four bytes shift all 32 bits out. -/
theorem crcResidueIsZero : Obligations.CrcResidueIsZero := by
  intro d
  rw [computeCrc32, List.foldl_append, ← computeCrc32, foldl_crc32Step_leBytes]
  exact BitVec.ushiftRight_eq_zero (by decide)

end Sys2Proof.Proofs
end

section
/-! Proofs about the buffer, the Header Decoder, the Payload Decoder and the output ports. -/

namespace Sys2Proof.Proofs

open Sys2Proof.Machine Sys2Proof.Laws

/-- Settles O46. -/
theorem readReturnsLastWrite : Obligations.ReadReturnsLastWrite := by
  intro s a b v
  split_ifs with h
  · subst h
    exact readByte_write_same rfl
  · exact readByte_write_other rfl h

/-! ### The Header Decoder -/

theorem exec_hdrParse_of_some {h : List Byte} {hdr : Header} (hparse : parseHeader h = some hdr) (s : State) :
    exec (.hdrParse h) s = .next (s.deliver (.header hdr)) := by
  simp only [exec, execHdrParse, hparse]

theorem exec_hdrParse_of_none {h : List Byte} (hparse : parseHeader h = none) (s : State) :
    exec (.hdrParse h) s = .next (s.deliver (.error .malformedHeader)) := by
  simp only [exec, execHdrParse, hparse]

theorem parseHeader_of_length_lt {h : List Byte} (hlen : h.length < 25) : parseHeader h = none := if_pos hlen

theorem parseHeader_of_length_eq {h : List Byte} (hlen : h.length = 25) : parseHeader h = some (headerOf h) := by
  simp [parseHeader, hlen]

theorem parseHeader_of_length_gt {h : List Byte} (hlen : 25 < h.length) :
    parseHeader h = some (headerOf (Config.overlongHeader h)) := by
  rw [parseHeader, if_neg (by omega), if_neg (by omega)]

/-- The bytes of a field inside a sequence. -/
theorem take_drop_succ (h : List Byte) {o w : Nat} (ho : o < h.length) :
    (h.drop o).take (w + 1) = h.getD o 0 :: (h.drop (o + 1)).take w := by
  rw [List.drop_eq_getElem_cons ho, List.take_succ_cons, List.getD_eq_getElem h 0 ho]

theorem fieldAt_one {h : List Byte} {o : Nat} (ho : o < h.length) : fieldAt h o 1 = h.getD o 0 := by
  simp [fieldAt, take_drop_succ h ho]

theorem toNat_fieldAt {h : List Byte} (o w : Nat) : (fieldAt h o w).toNat = le ((h.drop o).take w) := by
  have hlt : le ((h.drop o).take w) < 2 ^ (8 * w) := by
    refine (le_lt _).trans_le ?_
    rw [pow_mul]
    exact Nat.pow_le_pow_right (by decide) (List.length_take_le _ _)
  rw [fieldAt, BitVec.toNat_ofNat, Nat.mod_eq_of_lt hlt]

theorem toNat_fieldAt_two {h : List Byte} {o : Nat} (ho : o + 1 < h.length) :
    (fieldAt h o 2).toNat = (h.getD o 0).toNat + 256 * (h.getD (o + 1) 0).toNat := by
  rw [toNat_fieldAt, take_drop_succ h (by omega), take_drop_succ h ho]
  simp

theorem toNat_fieldAt_four {h : List Byte} {o : Nat} (ho : o + 3 < h.length) :
    (fieldAt h o 4).toNat = (h.getD o 0).toNat + 2 ^ 8 * (h.getD (o + 1) 0).toNat + 2 ^ 16 * (h.getD (o + 2) 0).toNat +
      2 ^ 24 * (h.getD (o + 3) 0).toNat := by
  rw [toNat_fieldAt, take_drop_succ h (by omega), take_drop_succ h (by omega), take_drop_succ h (by omega),
    take_drop_succ h ho]
  simp only [le_cons, List.take_zero, le_nil, Nat.add_assoc, Nat.reduceAdd]
  omega

/-- Settles O47: each length its own case, and 25 bytes field by field. -/
theorem headerParse : Obligations.HeaderParse := by
  intro s h
  refine ⟨fun hlen => ?long, fun hlen => ?short, fun hlen => ?exact⟩
  case long => exact ⟨_, exec_hdrParse_of_some (parseHeader_of_length_gt hlen) s⟩
  case short => exact exec_hdrParse_of_none (parseHeader_of_length_lt hlen) s
  case exact =>
    exact ⟨headerOf h, exec_hdrParse_of_some (parseHeader_of_length_eq hlen) s,
      fieldAt_one (by omega), toNat_fieldAt_two (by omega), fieldAt_one (by omega), fieldAt_one (by omega),
      toNat_fieldAt_two (by omega), toNat_fieldAt_two (by omega), fieldAt_one (by omega), fieldAt_one (by omega),
      toNat_fieldAt_two (by omega), toNat_fieldAt_four (by omega), toNat_fieldAt_four (by omega),
      toNat_fieldAt_two (by omega), toNat_fieldAt_two (by omega)⟩

/-- A header field of the frame in progress is the read at its buffer address (20_memory.md R64). -/
theorem fieldAt_readBytes (s : State) {a k o w : Nat} (h : o + w ≤ k) :
    fieldAt (s.readBytes a k) o w = s.memRead (a + o) w := by
  rw [fieldAt, take_drop_readBytes s a k o w h, State.memRead]

/-- Settles O48: each field of the 25 bytes is the read at 3 plus its offset. -/
theorem headerFieldsComeFromTheirAddresses : Obligations.HeaderFieldsComeFromTheirAddresses := by
  intro s
  refine ⟨parseHeader_of_length_eq (length_readBytes s 3 25), ?fields⟩
  simp [State.header, headerOf, fieldAt_readBytes, headerAddr, extU8, extI8, extU16, extU32, extI32]

/-! ### The Payload Decoder -/

theorem exec_pldBestvel (s : State) :
    exec .pldBestvel s = .next (s.deliver (.body (.velocityFix (decodeBestvel s)))) := rfl

theorem exec_pldVx (h a : Dword) (s : State) : exec (.pldVx h a) s = .next (s.deliver (.f64 (vx h a))) := rfl

theorem exec_pldVy (h a : Dword) (s : State) : exec (.pldVy h a) s = .next (s.deliver (.f64 (vy h a))) := rfl

/-- Settles O51: with the payload at address 28 and the two products written out, the decoder's record is the one stated. -/
theorem bestvelRecord : Obligations.BestvelRecord := by
  intro s
  rw [exec_pldBestvel, deliver_eq]
  simp only [decodeBestvel, payloadAddr, Nat.reduceAdd, vx, vy, knotsToMps]

/-- Settles O53. -/
theorem planarVelocity : Obligations.PlanarVelocity := by
  intro s h a
  rw [exec_pldVx, exec_pldVy, deliver_eq, deliver_eq, vx, vy, knotsToMps]
  exact ⟨rfl, rfl⟩

theorem exec_pldDispatch (id len : Half) (s : State) :
    exec (.pldDispatch id len) s = dispatchPayload id len s fun b => .next (s.deliver (.body b)) := rfl

/-- Settles O54: one case for each decoder, the wrong sizes, and the other message IDs. -/
theorem dispatchByMessageId : Obligations.DispatchByMessageId := by
  intro s id len
  rw [exec_pldDispatch]
  split_ifs with hpos hposLen hvel hvelLen
  · rw [dispatchPayload_bestpos hpos hposLen, deliver_eq]
  · rw [dispatchPayload_wrongSize (.inl ⟨hpos, hposLen⟩), raiseDrop_eq_afterDrop]
  · rw [dispatchPayload_bestvel hvel hvelLen, deliver_eq]
  · rw [dispatchPayload_wrongSize (.inr ⟨hvel, hvelLen⟩), raiseDrop_eq_afterDrop]
  · rw [dispatchPayload_unrecognized hpos hvel, deliver_eq]

/-! ### Records come back from their bytes (95_test_vectors.md S-P2) -/

@[simp] theorem length_bytesOf (k : Nat) (v : BitVec (8 * k)) : (bytesOf k v).length = k := length_leBytes k v.toNat

section FieldsOfBytes

variable {o w k : Nat} {q : List Byte}

theorem fieldAt_bytesOf_append (v : BitVec (8 * w)) : fieldAt (bytesOf w v ++ q) 0 w = v := by
  have htake : (bytesOf w v ++ q).take w = bytesOf w v := by
    rw [List.take_append_of_le_length (length_bytesOf w v).ge, List.take_of_length_le (length_bytesOf w v).le]
  rw [fieldAt, List.drop_zero, htake]
  exact ofNat_le_leBytes w v

theorem fieldAt_bytesOf (v : BitVec (8 * w)) : fieldAt (bytesOf w v) 0 w = v := by
  have h := fieldAt_bytesOf_append (q := []) v
  rwa [List.append_nil] at h

/-- A field behind another one. -/
theorem fieldAt_bytesOf_append_of_le (v : BitVec (8 * k)) (h : k ≤ o) :
    fieldAt (bytesOf k v ++ q) o w = fieldAt q (o - k) w := by
  rw [fieldAt, List.drop_append, List.drop_of_length_le (by rwa [length_bytesOf]), List.nil_append, length_bytesOf, fieldAt]

theorem fieldAt_cons_zero (b : Byte) : fieldAt (b :: q) 0 1 = b := fieldAt_one (Nat.zero_lt_succ _)

theorem fieldAt_cons_of_pos (b : Byte) (h : 0 < o) : fieldAt (b :: q) o w = fieldAt q (o - 1) w := by
  obtain ⟨o, rfl⟩ := Nat.exists_eq_add_one_of_ne_zero h.ne'
  rfl

end FieldsOfBytes

theorem length_headerBytes (h : Header) : (headerBytes h).length = 25 := by
  simp only [headerBytes, List.length_append, length_bytesOf]

theorem headerOf_headerBytes (h : Header) : headerOf (headerBytes h) = h := by
  simp (disch := omega) only [headerOf, headerBytes, List.append_assoc, fieldAt_bytesOf_append_of_le, Nat.reduceSub,
    fieldAt_bytesOf_append, fieldAt_bytesOf]

/-- A payload field is the field at its offset of the payload's bytes (20_memory.md R64). -/
theorem memRead_payloadAddr {s : State} {k o w : Nat} {bs : List Byte} (hbs : s.readBytes 28 k = bs) (h : o + w ≤ k) :
    s.memRead (payloadAddr o) w = fieldAt bs o w := by
  rw [← hbs, fieldAt_readBytes s h, payloadAddr]

/-- The record of a BESTPOS payload: the raw fields come back and the derived values are computed again. -/
theorem decodeBestpos_of_readBytes {s : State} {r : PositionFix} (h : s.readBytes 28 72 = bestposBytes r) :
    decodeBestpos s = { r with
      fixQuality := fixQuality r.solStatus r.posType, covType := .diagonalKnown
      varLat := r.latStd, varLon := r.lonStd, varHgt := r.hgtStd, satsVisible := r.svs, satsUsed := r.solnSvs } := by
  simp (disch := omega) only [decodeBestpos, extI32, extF32, extF64, extU8, memRead_payloadAddr h, bestposBytes,
    List.append_assoc, fieldAt_bytesOf_append_of_le, Nat.reduceSub, fieldAt_bytesOf_append, fieldAt_cons_of_pos,
    fieldAt_cons_zero, covariance, satCounts]

/-- The record of a BESTVEL payload: the raw fields come back and the velocity is computed again. -/
theorem decodeBestvel_of_readBytes {s : State} {r : VelocityFix} (h : s.readBytes 28 44 = bestvelBytes r) :
    decodeBestvel s = { r with vx := vx r.horSpeed r.trackGnd, vy := vy r.horSpeed r.trackGnd } := by
  simp (disch := omega) only [decodeBestvel, extI32, extF32, extF64, memRead_payloadAddr h, bestvelBytes,
    List.append_assoc, fieldAt_bytesOf_append_of_le, Nat.reduceSub, fieldAt_bytesOf_append, fieldAt_bytesOf]

/-- Settles O55. -/
theorem recordsRoundTrip : Obligations.RecordsRoundTrip := by
  refine ⟨fun h => ⟨length_headerBytes h, ?_⟩, fun s r => decodeBestpos_of_readBytes, fun s r => decodeBestvel_of_readBytes⟩
  rw [parseHeader_of_length_eq (length_headerBytes h), headerOf_headerBytes]

/-! ### The output ports -/

theorem haltedOut_iff (s : State) : s.haltedOut = true ↔ s.st = .halted := decide_eq_true_iff

theorem srcReady_iff (s : State) :
    s.srcReady = true ↔ s.evt = none ∧ (s.st = .seekingSync ∨ s.st = .readingHeader ∨ s.st = .readingPayload ∨
      s.st = .readingChecksum) := by
  rw [State.srcReady, Bool.and_eq_true, Option.isNone_iff_eq_none]
  cases s.st <;> simp

theorem evtValid_iff (s : State) : s.evtValid = true ↔ s.evt ≠ none := Option.isSome_iff_ne_none

/-- The week number is one field or the other (30_encoding.md R94). -/
theorem gpsWeek_eq_ite (f : Config.WeekField) (h : Header) : h.gpsWeek f = if f = .f5 then h.f5 else h.f8 := by
  cases f <;> rfl

/-- Settles O60: each output of a waiting event is read off the event; `afterDrop` offers a Dropped event. -/
theorem portOutputs : Obligations.PortOutputs := by
  refine fun s reason => ⟨haltedOut_iff s, srcReady_iff s, evtValid_iff s, rfl, rfl, rfl, fun hdr body len hevt => ?frame,
    rfl, rfl, rfl, rfl, fun a => rfl⟩
  have hhdr : s.evtHeader = some hdr := by rw [State.evtHeader, hevt]; rfl
  refine ⟨?kind, ?reason, ?frameKind, hhdr, ?week, ?rawLen, ?position, ?velocity⟩
  case kind => rw [State.evtKind, hevt]; rfl
  case reason => rw [State.evtReason, hevt]; rfl
  case frameKind => rw [State.evtFrameKind, hevt]; rfl
  case week => rw [State.evtGpsWeek, hhdr, Option.map_some, gpsWeek_eq_ite]
  case rawLen => rw [State.rawLen, hevt]; rfl
  case position => rw [State.evtPosition, hevt]; cases body <;> rfl
  case velocity => rw [State.evtVelocity, hevt]; cases body <;> rfl

end Sys2Proof.Proofs
end

section
/-! Proofs about the invariant of 10_state.md section 8: every row the sequencer can select keeps what R36 says of the sections,
because the byte it takes is stored at address `n`, and so does a step of the block. -/

namespace Sys2Proof.Proofs

open Sys2Proof.Machine Sys2Proof.Laws

variable {s t : State} {b : Byte} {i : Instr}

/-! ### Between frames -/

theorem sectionInv_of_betweenFrames (h : s.betweenFrames) : s.sectionInv := by
  obtain ⟨hst, hm, hclear⟩ := h
  rw [State.sectionInv, hst]
  exact ⟨by simp [hm], hclear⟩

theorem afterDrop_betweenFrames (reason : Reason) (s : State) : (s.afterDrop reason).betweenFrames :=
  ⟨rfl, rfl, rfl, rfl, rfl, rfl, rfl⟩

theorem afterFrame_betweenFrames (hdr : Header) (body : Body) (s : State) : (s.afterFrame hdr body).betweenFrames :=
  ⟨rfl, rfl, rfl, rfl, rfl, rfl, rfl⟩

theorem halt_sectionInv (s : State) : s.halt.sectionInv := ⟨rfl, rfl, rfl, rfl, rfl, rfl⟩

/-! ### The preamble -/

theorem readBytes_preambleComplete (s : State) : s.preambleComplete.readBytes 0 3 = [0xAA, 0x44, 0x12] := by
  simp [State.readBytes, State.readByte, find_write_same, find_write_other]

theorem written_preambleComplete (s : State) : s.preambleComplete.written 3 := by
  have hstart : s.written 0 := fun a ha => absurd ha (Nat.not_lt_zero a)
  have h0 : (s.memWrite 0 0xAA).written 1 := written_write rfl hstart
  have h1 : ((s.memWrite 0 0xAA).memWrite 1 0x44).written 2 := written_write rfl h0
  exact written_write (s := (s.memWrite 0 0xAA).memWrite 1 0x44) rfl h1

theorem preambleComplete_sectionInv (hst : s.st = .seekingSync) (hs : s.sectionInv) : s.preambleComplete.sectionInv := by
  rw [State.sectionInv, hst] at hs
  obtain ⟨-, -, -, hL, -, hrx⟩ := hs
  have hbytes := readBytes_preambleComplete s
  refine ⟨rfl, Nat.zero_le _, rfl, hL, hrx, hbytes, written_preambleComplete s, ?_⟩
  change _ = computeCrc32 (s.preambleComplete.readBytes 0 3)
  rw [hbytes, computeCrc32_preamble]
  rfl

theorem syncMatch_le_two {m k : BitVec 2} (h : syncMatch m b = some k) : k.toNat ≤ 2 := by
  unfold syncMatch at h
  split_ifs at h <;> cases h <;> decide

theorem fsmSeek_sectionInv (hs : s.sectionInv) (hst : s.st = .seekingSync) (h : exec (.fsmSeek b) s = .next t) :
    t.sectionInv := by
  rcases hmatch : syncMatch s.m b with _ | k
  · cases (exec_fsmSeek_of_complete hst hmatch).symm.trans h
    exact preambleComplete_sectionInv hst hs
  · cases (exec_fsmSeek_of_count hst hmatch).symm.trans h
    rw [State.sectionInv, hst] at hs ⊢
    exact ⟨syncMatch_le_two hmatch, hs.2⟩

/-! ### A byte joins the frame -/

/-- The byte is stored at address `n`, behind the bytes of the frame so far; the section's properties hold and no event is
emitted. -/
structure Appended (b : Byte) (s t : State) : Prop where
  buf : t.buf = s.buf.write s.n.toNat b
  n : t.n.toNat = s.n.toNat + 1
  inv : t.sectionInv
  evt : t.evt = s.evt
  trace : t.trace = s.trace

theorem toNat_add_one {w : Nat} {x : BitVec w} (h : x.toNat + 1 < 2 ^ w) : (x + 1#w).toNat = x.toNat + 1 := by
  have hw : 1 < 2 ^ w := by omega
  rw [BitVec.toNat_add, BitVec.toNat_ofNat, Nat.mod_eq_of_lt hw, Nat.mod_eq_of_lt h]

theorem appended_fsmHdr (hs : s.sectionInv) (hst : s.st = .readingHeader) (hcnt : s.cnt.toNat < 24)
    (h : exec (.fsmHdr b) s = .next t) : Appended b s t ∧ t.st = .readingHeader := by
  rw [State.sectionInv, hst] at hs
  obtain ⟨hm, -, hn, hL, hrx, hsync, habs⟩ := hs
  have haddr : headerAddr s.cnt.toNat = s.n.toNat := hn.symm
  have hcnt' : (s.cnt + 1).toNat = s.cnt.toNat + 1 := toNat_add_one (by omega)
  have hn' : (s.n + 1).toNat = s.n.toNat + 1 := toNat_add_one (by omega)
  rw [exec_fsmHdr hst hcnt, haddr] at h
  have ht := (Host.Outcome.next.inj h).symm
  have hbuf : t.buf = s.buf.write s.n.toNat b := by rw [ht]
  have hnt : t.n.toNat = s.n.toNat + 1 := by rw [ht]; exact hn'
  have hcntt : t.cnt.toNat = s.cnt.toNat + 1 := by rw [ht]; exact hcnt'
  have hstt : t.st = .readingHeader := by rw [ht, ← hst]
  have habs' : t.absorbed (s.n.toNat + 1) := absorbed_write hbuf (by rw [ht]) habs
  refine ⟨⟨hbuf, hnt, ?inv, by rw [ht], by rw [ht]⟩, hstt⟩
  rw [State.sectionInv, hstt]
  refine ⟨by rw [ht]; exact hm, by omega, by omega, by rw [ht]; exact hL, by rw [ht]; exact hrx, ?_, ?_⟩
  · rw [readBytes_write_outside hbuf 0 3 (by omega), hsync]
  · rwa [hnt]

/-- The last header byte, once its checks have passed. -/
theorem appended_headerComplete (hs : s.sectionInv) (hst : s.st = .readingHeader) (hcnt : 24 ≤ s.cnt.toNat) {u : State}
    (hu : u = s.headerComplete b) (hlen : u.readByte 3 = 28) (hmax : (u.memRead 8 2).toNat ≤ u.cfg.maxPayloadLen.toNat)
    (ht : t = { u with
      L := u.memRead 8 2, cnt := 0, st := if u.memRead 8 2 = 0 then .readingChecksum else .readingPayload }) :
    Appended b s t := by
  rw [State.sectionInv, hst] at hs
  obtain ⟨hm, hcnt', hn, -, hrx, -, habs⟩ := hs
  have hn27 : s.n.toNat = 27 := by omega
  have hbuf : t.buf = s.buf.write s.n.toNat b := by rw [ht, hu, hn27, headerComplete_buf]
  have hbufu : t.buf = u.buf := by rw [ht]
  have hnt : t.n.toNat = 28 := by rw [ht, hu]; rfl
  have hcntt : t.cnt.toNat = 0 := by rw [ht]; rfl
  have hLt : t.L = u.memRead 8 2 := by rw [ht]
  have hmt : t.m = 0 := by rw [ht, hu, ← hm]; rfl
  have hrxt : t.crcRx = 0 := by rw [ht, hu, ← hrx]; rfl
  have hcfg : t.cfg = u.cfg := by rw [ht]
  have habs' : t.absorbed 28 := by
    have := absorbed_write hbuf (by rw [ht, hu]; rfl) habs
    rwa [hn27] at this
  have hchecked : t.headerChecked := by
    refine ⟨by rw [hLt, hcfg]; exact hmax, ?_, ?_⟩
    · rw [hLt, memRead_congr hbufu]
    · rw [memRead_one, readByte_congr hbufu, hlen]
  refine ⟨hbuf, by rw [hnt, hn27], ?inv, by rw [ht, hu]; rfl, by rw [ht, hu]; rfl⟩
  by_cases hzero : u.memRead 8 2 = 0
  · have hstt : t.st = .readingChecksum := by rw [ht, if_pos hzero]
    have hL0 : t.L.toNat = 0 := by rw [hLt, hzero]; rfl
    rw [State.sectionInv, hstt]
    refine ⟨hmt, by omega, by omega, hchecked, ?_, ?_, ?_⟩
    · rwa [hL0]
    · rw [hnt]
      exact habs'.1
    · rw [hrxt, hcntt]
      rfl
  · have hstt : t.st = .readingPayload := by rw [ht, if_neg hzero]
    have hLpos : t.L.toNat ≠ 0 := by
      rw [hLt]
      exact fun h => hzero (BitVec.eq_of_toNat_eq h)
    rw [State.sectionInv, hstt]
    refine ⟨hmt, by omega, by omega, by omega, hchecked, hrxt, ?_⟩
    rwa [hnt]

/-- A payload byte; the last one turns to the checksum (R251). -/
theorem appended_fsmPld (hs : s.sectionInv) (hst : s.st = .readingPayload) (h : exec (.fsmPld b) s = .next t) :
    Appended b s t ∧ t.L = s.L ∧
      t.st = if s.n.toNat + 1 = 28 + s.L.toNat then .readingChecksum else .readingPayload := by
  rw [State.sectionInv, hst] at hs
  obtain ⟨hm, hn, -, hlt, hchecked, hrx, habs⟩ := hs
  have hmax := hchecked.1
  have haddr : payloadAddr s.cnt.toNat = s.n.toNat := hn.symm
  have hspace : s.n.toNat < 32 + s.cfg.maxPayloadLen.toNat := by omega
  have hcnt' : (s.cnt + 1).toNat = s.cnt.toNat + 1 := toNat_add_one (by omega)
  have hn' : (s.n + 1).toNat = s.n.toNat + 1 := toNat_add_one (by omega)
  have hlast : s.cnt.toNat + 1 = s.L.toNat ↔ s.n.toNat + 1 = 28 + s.L.toNat := by omega
  rw [exec_fsmPld hst rfl, haddr, store_eq hspace, ← apply_ite Host.Outcome.next] at h
  have ht := (Host.Outcome.next.inj h).symm
  simp only [hlast] at ht
  have hbuf : t.buf = s.buf.write s.n.toNat b := by rw [ht]; split <;> rfl
  have hnt : t.n.toNat = s.n.toNat + 1 := by rw [ht, ← hn']; split <;> rfl
  have hLt : t.L = s.L := by rw [ht]; split <;> rfl
  have hmt : t.m = 0 := by rw [ht, ← hm]; split <;> rfl
  have hrxt : t.crcRx = 0 := by rw [ht, ← hrx]; split <;> rfl
  have hcfg : t.cfg = s.cfg := by rw [ht]; split <;> rfl
  have hstt : t.st = if s.n.toNat + 1 = 28 + s.L.toNat then .readingChecksum else .readingPayload := by
    rw [ht]
    split
    · rfl
    · exact hst
  have habs' : t.absorbed t.n.toNat := by
    rw [hnt]
    exact absorbed_write hbuf (by rw [ht]; split <;> rfl) habs
  have hchecked' : t.headerChecked := headerChecked_keep hbuf hLt hcfg (by omega) hchecked
  refine ⟨⟨hbuf, hnt, ?inv, by rw [ht]; split <;> rfl, by rw [ht]; split <;> rfl⟩, hLt, hstt⟩
  by_cases hend : s.n.toNat + 1 = 28 + s.L.toNat
  · rw [if_pos hend] at ht hstt
    have hcntt : t.cnt = 0 := by rw [ht]
    rw [State.sectionInv, hstt]
    refine ⟨hmt, ?_, ?_, hchecked', ?_, habs'.1, ?_⟩
    · rw [hnt, hend, hLt, hcntt]
      rfl
    · rw [hcntt]
      exact Nat.zero_le 3
    · rwa [hLt, ← hend, ← hnt]
    · rw [hrxt, hcntt]
      rfl
  · rw [if_neg hend] at ht hstt
    have hcntt : t.cnt.toNat = s.cnt.toNat + 1 := by rw [ht]; exact hcnt'
    rw [State.sectionInv, hstt]
    refine ⟨hmt, by omega, ?_, ?_, hchecked', hrxt, habs'⟩
    · rw [hLt]
      omega
    · rw [hLt]
      omega

/-! ### The checksum -/

/-- Bit `j` of a little-endian value is a bit of byte `j / 8`. -/
theorem getLsbD_ofNat_le (bs : List Byte) {j : Nat} (hj : j < 32) :
    (BitVec.ofNat 32 (le bs)).getLsbD j = (bs.getD (j / 8) 0).getLsbD (j % 8) := by
  have hbit := testBit_le bs (j / 8) (Nat.mod_lt j (by decide : 0 < 8))
  rw [Nat.div_add_mod] at hbit
  rw [BitVec.getLsbD_ofNat, hbit, decide_eq_true hj, Bool.true_and]

/-- Setting byte `k` of a value of `k` bytes appends a byte to it (10_state.md R27). -/
theorem setChecksumByte_ofNat_le (bs : List Byte) (b : Byte) :
    setChecksumByte (BitVec.ofNat 32 (le bs)) bs.length b = BitVec.ofNat 32 (le (bs ++ [b])) := by
  apply BitVec.eq_of_getLsbD_eq
  intro j hj
  rw [getLsbD_setChecksumByte _ _ _ hj, getLsbD_ofNat_le _ hj, getLsbD_ofNat_le _ hj]
  split_ifs with hin
  · have hbyte : j / 8 = bs.length := by omega
    have hbit : j - 8 * bs.length = j % 8 := by omega
    simp [hbyte, hbit]
  · rcases Nat.lt_or_ge (j / 8) bs.length with hbelow | hfrom
    · rw [List.getD_append _ _ _ _ hbelow]
    · have habove : (bs ++ [b]).length ≤ j / 8 := by
        rw [List.length_append, List.length_singleton]
        omega
      rw [List.getD_eq_default _ _ hfrom, List.getD_eq_default _ _ habove]

/-- With 24 bits received, the last byte's `xor` sets byte 3 (R254). -/
theorem shiftLeft_xor_ofNat_le {bs : List Byte} (hlen : bs.length = 3) (b : Byte) :
    (b.setWidth 32 <<< 24) ^^^ BitVec.ofNat 32 (le bs) = BitVec.ofNat 32 (le (bs ++ [b])) := by
  rw [← setChecksumByte_ofNat_le, hlen]
  apply BitVec.eq_of_getLsbD_eq
  intro j hj
  rw [getLsbD_setChecksumByte _ _ _ hj, BitVec.getLsbD_xor, BitVec.getLsbD_shiftLeft]
  rcases Nat.lt_or_ge j 24 with hlow | htop
  · simp [hlow, Nat.not_le.mpr hlow]
  · have hnone : (BitVec.ofNat 32 (le bs)).getLsbD j = false := by
      rw [getLsbD_ofNat_le _ hj, List.getD_eq_default _ _ (by omega)]
      simp
    have hwide : j - 24 < 32 := by omega
    rw [hnone]
    simp [hj, htop, hwide, Nat.not_lt.mpr htop]

/-- One of the first three checksum bytes (R253). -/
theorem appended_fsmCrc (hs : s.sectionInv) (hst : s.st = .readingChecksum) (hcnt : s.cnt.toNat < 3)
    (h : exec (.fsmCrc b) s = .next t) : Appended b s t ∧ t.L = s.L ∧ t.st = .readingChecksum := by
  rw [State.sectionInv, hst] at hs
  obtain ⟨hm, hn, -, hchecked, habs, hwritten, hrx⟩ := hs
  have hmax := hchecked.1
  have haddr : checksumAddr s.L + s.cnt.toNat = s.n.toNat := hn.symm
  have hspace : s.n.toNat < 32 + s.cfg.maxPayloadLen.toNat := by omega
  have hcnt' : (s.cnt + 1).toNat = s.cnt.toNat + 1 := toNat_add_one (by omega)
  have hn' : (s.n + 1).toNat = s.n.toNat + 1 := toNat_add_one (by omega)
  rw [exec_fsmCrc hst hcnt, haddr, store_eq hspace] at h
  have ht := (Host.Outcome.next.inj h).symm
  have hbuf : t.buf = s.buf.write s.n.toNat b := by rw [ht]
  have hnt : t.n.toNat = s.n.toNat + 1 := by rw [ht]; exact hn'
  have hcntt : t.cnt.toNat = s.cnt.toNat + 1 := by rw [ht]; exact hcnt'
  have hLt : t.L = s.L := by rw [ht]
  have hstt : t.st = .readingChecksum := by rw [ht]; exact hst
  refine ⟨⟨hbuf, hnt, ?inv, by rw [ht], by rw [ht]⟩, hLt, hstt⟩
  have hbuf' : t.buf = s.buf.write (28 + s.L.toNat + s.cnt.toNat) b := by rw [hbuf, hn]
  rw [State.sectionInv, hstt]
  refine ⟨by rw [ht]; exact hm, by rw [hLt]; omega, by omega, headerChecked_keep hbuf hLt (by rw [ht]) (by omega) hchecked,
    ?_, ?_, ?_⟩
  · rw [hLt]
    exact absorbed_keep hbuf (by rw [ht]) (by omega) habs
  · rw [hnt]
    exact written_write hbuf hwritten
  · have hset := setChecksumByte_ofNat_le (s.readBytes (28 + s.L.toNat) s.cnt.toNat) b
    rw [length_readBytes, ← hrx] at hset
    rw [hLt, hcntt, readBytes_write_end _ _ hbuf', ← hset, ht]

/-- The last checksum byte, once the checksum has agreed (R254). -/
theorem appended_fsmCrcLast (hs : s.sectionInv) (hst : s.st = .readingChecksum) (hcnt : 3 ≤ s.cnt.toNat)
    (hsum : (b.setWidth 32 <<< 24) ^^^ s.crcRx = s.crcAcc) (h : exec (.fsmCrcLast b) s = .next t) :
    Appended b s t ∧ t.L = s.L ∧ t.st = .dispatching := by
  rw [State.sectionInv, hst] at hs
  obtain ⟨hm, hn, hcnt3, hchecked, habs, hwritten, hrx⟩ := hs
  have hmax := hchecked.1
  have haddr : checksumAddr s.L + 3 = s.n.toNat := by rw [checksumAddr]; omega
  have hspace : s.n.toNat < 32 + s.cfg.maxPayloadLen.toNat := by omega
  have hlen : (BitVec.ofNat 17 (32 + s.L.toNat)).toNat = 32 + s.L.toNat := by
    rw [BitVec.toNat_ofNat]
    omega
  rw [exec_fsmCrcLast hst hcnt rfl, if_pos ((checksumEqual_iff _ _).mpr hsum), haddr, store_eq hspace,
    setWidth_add_32] at h
  have ht := (Host.Outcome.next.inj h).symm
  have hbuf : t.buf = s.buf.write s.n.toNat b := by rw [ht]
  have hnt : t.n.toNat = 32 + s.L.toNat := by rw [ht]; exact hlen
  have hnt' : t.n.toNat = s.n.toNat + 1 := by omega
  have hLt : t.L = s.L := by rw [ht]
  have hstt : t.st = .dispatching := by rw [ht]
  refine ⟨⟨hbuf, hnt', ?inv, by rw [ht], by rw [ht]⟩, hLt, hstt⟩
  rw [State.sectionInv, hstt]
  refine ⟨by rw [ht]; exact hm, by rw [ht], by rw [hLt]; exact hnt, headerChecked_keep hbuf hLt (by rw [ht]) (by omega) hchecked,
    ?_, ?_, ?_⟩
  · rw [hLt]
    exact absorbed_keep hbuf (by rw [ht]) (by omega) habs
  · rw [hnt']
    exact written_write hbuf hwritten
  · rw [ht]
    exact hsum

/-! ### Every row, every step -/

theorem sectionInv_of_raiseDrop {reason : Reason} (h : raiseDrop reason s = .next t) : t.sectionInv := by
  cases (raiseDrop_eq_afterDrop reason s).symm.trans h
  exact sectionInv_of_betweenFrames (afterDrop_betweenFrames reason s)

/-- An FSM row takes a byte into the frame, ends the frame, halts, or leaves the state. -/
theorem sectionInv_of_fsm (hf : i.format = .fsm) (hs : s.sectionInv) (h : exec i s = .next t) : t.sectionInv := by
  suffices hselected : RowSelected s i → t.sectionInv by
    by_cases hsel : RowSelected s i
    · exact hselected hsel
    · cases (exec_of_not_rowSelected hsel).symm.trans h
      exact hs
  intro hsel
  cases i <;> cases hf
  case fsmReset =>
    cases h
    exact sectionInv_of_betweenFrames (resetBlock_betweenFrames s)
  case fsmHalt =>
    cases h
    exact hs
  case fsmDrop reason => exact sectionInv_of_raiseDrop h
  case fsmSeek b => exact fsmSeek_sectionInv hs hsel h
  case fsmSeekEos =>
    cases (exec_fsmSeekEos hsel).symm.trans h
    exact halt_sectionInv s
  case fsmStop =>
    cases (exec_fsmStop hsel).symm.trans h
    exact halt_sectionInv s
  case fsmHdrEos => exact sectionInv_of_raiseDrop ((exec_fsmHdrEos hsel).symm.trans h)
  case fsmPldEos => exact sectionInv_of_raiseDrop ((exec_fsmPldEos hsel).symm.trans h)
  case fsmCrcEos => exact sectionInv_of_raiseDrop ((exec_fsmCrcEos hsel).symm.trans h)
  case fsmHdr b => exact (appended_fsmHdr hs hsel.1 (of_decide_eq_true hsel.2) h).1.inv
  case fsmHdrLast b =>
    have hcnt := le_of_not_moreHeader hsel.2
    rw [exec_fsmHdrLast hsel.1 hcnt rfl] at h
    split at h
    case isTrue hchecks =>
      obtain ⟨hlen, hmax⟩ := hchecks
      rw [validateHeaderLength_25_iff] at hlen
      rw [lengthAllowed_iff] at hmax
      exact (appended_headerComplete hs hsel.1 hcnt rfl hlen hmax (Host.Outcome.next.inj h).symm).inv
    case isFalse => exact sectionInv_of_raiseDrop h
  case fsmPld b => exact (appended_fsmPld hs hsel h).1.inv
  case fsmCrc b => exact (appended_fsmCrc hs hsel.1 (of_decide_eq_true hsel.2) h).1.inv
  case fsmCrcLast b =>
    have hcnt := le_of_not_moreChecksum hsel.2
    by_cases hsum : (b.setWidth 32 <<< 24) ^^^ s.crcRx = s.crcAcc
    · exact (appended_fsmCrcLast hs hsel.1 hcnt hsum h).1.inv
    · rw [exec_fsmCrcLast hsel.1 hcnt rfl, if_neg (hsum ∘ (checksumEqual_iff _ _).mp)] at h
      exact sectionInv_of_raiseDrop h
  case fsmDisp =>
    rw [exec_fsmDisp hsel] at h
    rcases dispatchPayload_cases s.header.f1 s.L s fun body => .next (s.afterFrame s.header body) with ⟨body, hd⟩ | hd
    · cases hd.symm.trans h
      exact sectionInv_of_betweenFrames (afterFrame_betweenFrames _ _ _)
    · exact sectionInv_of_raiseDrop (hd.symm.trans h)

/-- Every way to change `buf` keeps the canonical form. -/
theorem wf_of_exec (h : exec i s = .next t) (hwf : Memory.wf s.buf) : Memory.wf t.buf := by
  have hpreamble : Memory.wf s.preambleComplete.buf := write_wf _ _ _ (write_wf _ _ _ (write_wf _ _ _ hwf))
  cases bufChange_of_exec h
  case kept hbuf => rwa [hbuf]
  case sync hbuf => rwa [hbuf]
  case seek b hbuf => rwa [hbuf]
  case hdr b hbuf => rw [hbuf]; exact write_wf _ _ _ hwf
  case hdrLast b hbuf => rw [hbuf]; exact write_wf _ _ _ hwf
  case pld b hbuf => rw [hbuf]; exact store_wf s _ b hwf
  case crc b hbuf => rw [hbuf]; exact store_wf s _ b hwf
  case crcLast b hbuf => rw [hbuf]; exact store_wf s _ b hwf

/-- Settles O17: what a step runs is an FSM row, and neither sampling nor consuming touches what the invariant is about. -/
theorem everyStepKeepsInvariant : Obligations.EveryStepKeepsInvariant := by
  intro s t hinv h
  have hop := hinv.1
  rw [step_block hop] at h
  have hsample : s.sample.blockInv := blockInv_congr (by rw [sample_frame]) hinv
  rcases advance_cases s.sample with ⟨i, hsel, -, hadv⟩ | ⟨-, -, -, hadv⟩ | ⟨o, -, -, -, hadv⟩ | ⟨o, -, -, -, hadv⟩
  · rw [hadv] at h
    obtain ⟨hop', hwf, hsec⟩ : (s.sample.consume i).blockInv := blockInv_congr (by rw [consume_frame]) hsample
    obtain ⟨-, -, -, -, -, -, -, hopt⟩ := operationsLeaveEnvironment i _ t h
    exact ⟨hopt.trans hop', wf_of_exec h hwf, sectionInv_of_fsm (feasible_of_select hsel).1 hsec h⟩
  · cases hadv.symm.trans h
    exact hsample
  · cases hadv.symm.trans h
    exact blockInv_congr rfl hsample
  · cases hadv.symm.trans h
    exact hsample

/-- Settles O18: the machine's reset state is between frames, with an empty `buf`. -/
theorem invariantHoldsAtReset : Obligations.InvariantHoldsAtReset :=
  ⟨rfl, reset_buf_wf, sectionInv_of_betweenFrames reset_betweenFrames⟩

end Sys2Proof.Proofs
end

section
/-! Proofs about byte strings (43_frame_fsm.md R244, R245): what the block does with one byte after another from the source, and
that it finds the first preamble in them. -/

namespace Sys2Proof.Proofs

open Sys2Proof.Machine Sys2Proof.Laws

variable {s t u : State} {i : Instr} {b : Byte} {bs cs : List Byte} {r rest : List Feed}

/-! ### Several steps -/

theorem run_one (s : State) : core.run 1 s = step s := by
  simp only [Host.Core.run]
  change _ = core.step s
  cases core.step s <;> rfl

theorem run_add {j : Nat} (k : Nat) (h : core.run j s = .next t) : core.run (j + k) s = core.run k t := by
  induction j generalizing s with
  | zero =>
    cases h
    rw [Nat.zero_add]
  | succ j ih =>
    rw [Nat.add_right_comm]
    simp only [Host.Core.run] at h ⊢
    split at h
    · exact ih h
    · cases h
    · cases h

/-- The block has taken the bytes from the source one step after another and emitted nothing: the levels and the event port are
quiet as before. -/
structure Reads (s t : State) (bs : List Byte) (rest : List Feed) : Prop where
  run : core.run bs.length s = .next t
  feed : t.feed = rest
  cursor : t.cursor = s.cursor + bs.length
  quiet : t.quiet
  trace : t.trace = s.trace
  cfg : t.cfg = s.cfg

theorem Reads.nil (hq : s.quiet) : Reads s s [] s.feed := ⟨rfl, rfl, rfl, hq, rfl, rfl⟩

theorem Reads.append (h : Reads s t bs r) (h' : Reads t u cs rest) : Reads s u (bs ++ cs) rest := by
  refine ⟨?_, h'.feed, ?_, h'.quiet, h'.trace.trans h.trace, h'.cfg.trans h.cfg⟩
  · rw [List.length_append, run_add cs.length h.run, h'.run]
  · rw [h'.cursor, h.cursor, List.length_append, Nat.add_assoc]

theorem output_of_quiet (hq : s.quiet) : s.output = s.trace := by
  obtain ⟨-, hevt, -⟩ := hq
  simp [State.output, hevt]

/-- The byte at the head of the feed is consumed. -/
def taken (s : State) (r : List Feed) : State := { s with feed := r, cursor := s.cursor + 1 }

/-- A step that takes a byte runs its row on the state that has consumed the byte. -/
theorem step_of_byte (hq : s.quiet) (hfeed : s.feed = .byte b :: r) (hsel : s.select = some i)
    (htakes : Instr.takesByte i = true) : step s = exec i (taken s r) := by
  obtain ⟨hop, hevt, -⟩ := hq
  have hsample := sample_of_byte hfeed
  have hstep := step_of_select (i := i) hop (.inr hevt) (by rw [hsample, hsel])
  rw [hstep, hsample, State.consume, if_pos htakes, hfeed]
  rfl

theorem reads_of_exec (hq : s.quiet) (hfeed : s.feed = .byte b :: r) (hsel : s.select = some i)
    (htakes : Instr.takesByte i = true) (hexec : exec i (taken s r) = .next t) (hevt : t.evt = s.evt)
    (htrace : t.trace = s.trace) : Reads s t [b] r := by
  obtain ⟨htfeed, hcursor, heos, hstop, hrst, -, hcfg, hop⟩ := operationsLeaveEnvironment i _ t hexec
  refine ⟨?_, htfeed, hcursor, ?_, htrace, hcfg⟩
  · exact (run_one s).trans ((step_of_byte hq hfeed hsel htakes).trans hexec)
  · obtain ⟨hop', hevt', hrst', hstop', heos'⟩ := hq
    exact ⟨hop.trans hop', hevt.trans hevt', hrst.trans hrst', hstop.trans hstop', heos.trans heos'⟩

/-- A property of the bytes so far and the state that every acceptable next byte keeps is kept by an acceptable byte string. -/
theorem reads_of_step {P : List Byte → State → Prop} {Ok : List Byte → Prop} (hdown : ∀ l k, Ok (l ++ k) → Ok l)
    (hstep : ∀ {pre s b r}, P pre s → s.quiet → s.feed = .byte b :: r → Ok (pre ++ [b]) →
      ∃ t, Reads s t [b] r ∧ P (pre ++ [b]) t)
    {pre : List Byte} (hP : P pre s) (hq : s.quiet) (hfeed : s.feed = bs.map .byte ++ rest) (hok : Ok (pre ++ bs)) :
    ∃ t, Reads s t bs rest ∧ P (pre ++ bs) t := by
  induction bs generalizing s pre with
  | nil =>
    have hrest : s.feed = rest := hfeed
    exact ⟨s, hrest ▸ Reads.nil hq, by rwa [List.append_nil]⟩
  | cons b bs ih =>
    have hsplit : pre ++ b :: bs = pre ++ [b] ++ bs := by rw [List.append_assoc, List.singleton_append]
    rw [hsplit] at hok ⊢
    obtain ⟨t, hread, hPt⟩ := hstep hP hq hfeed (hdown _ _ hok)
    obtain ⟨u, hreads, hPu⟩ := ih hPt hread.quiet hread.feed hok
    exact ⟨u, hread.append hreads, hPu⟩

/-! ### The preamble matcher -/

theorem append_singleton_suffix_iff {l k : List Byte} {a b : Byte} : l ++ [a] <:+ k ++ [b] ↔ b = a ∧ l <:+ k := by
  rw [← List.reverse_prefix, List.reverse_append, List.reverse_append, ← List.reverse_prefix, eq_comm (a := b)]
  exact List.cons_prefix_cons

/-- How much of the preamble stands at the end of a byte string that does not end with all of it (R22). -/
def matchCount (pre : List Byte) : BitVec 2 :=
  if [0xAA, 0x44] <:+ pre then 2 else if [0xAA] <:+ pre then 1 else 0

theorem syncMatch_zero (b : Byte) : syncMatch 0 b = some (if b = 0xAA then 1 else 0) := by
  rw [syncMatch, if_neg (by simp), if_neg (by simp), apply_ite some]

theorem syncMatch_one (b : Byte) : syncMatch 1 b = some (if b = 0x44 then 2 else if b = 0xAA then 1 else 0) := by
  rw [syncMatch, if_neg (by simp), apply_ite some, apply_ite some]
  simp

theorem syncMatch_two (hb : b ≠ 0x12) : syncMatch 2 b = some (if b = 0xAA then 1 else 0) := by
  rw [syncMatch, if_neg fun h => hb h.2, if_neg (by simp), apply_ite some]

/-- The comparisons of R244 keep the match count of the bytes so far, until these end with the preamble. -/
theorem syncMatch_matchCount {pre : List Byte} (hno : ¬ syncBytes <:+ pre ++ [b]) :
    syncMatch (matchCount pre) b = some (matchCount (pre ++ [b])) := by
  have hthree : syncBytes <:+ pre ++ [b] ↔ b = 0x12 ∧ [0xAA, 0x44] <:+ pre :=
    append_singleton_suffix_iff (l := [0xAA, 0x44])
  have htwo : [0xAA, 0x44] <:+ pre ++ [b] ↔ b = 0x44 ∧ [0xAA] <:+ pre := append_singleton_suffix_iff (l := [0xAA])
  have hone : [0xAA] <:+ pre ++ [b] ↔ b = 0xAA :=
    (append_singleton_suffix_iff (l := [])).trans (and_iff_left List.nil_suffix)
  have hnotBoth : [0xAA, 0x44] <:+ pre → ¬ [0xAA] <:+ pre := fun h2 h1 =>
    absurd (List.suffix_of_suffix_length_le h1 h2 (by decide)) (by decide)
  rw [hthree] at hno
  simp only [matchCount, htwo, hone]
  by_cases h2 : [0xAA, 0x44] <:+ pre
  · have hb : b ≠ 0x12 := fun hb => hno ⟨hb, h2⟩
    rw [if_pos h2, if_neg fun h => hnotBoth h2 h.2, syncMatch_two hb]
  · by_cases h1 : [0xAA] <:+ pre
    · rw [if_neg h2, if_pos h1, syncMatch_one]
      simp only [and_iff_left h1]
    · rw [if_neg h2, if_neg h1, if_neg fun h => h1 h.2, syncMatch_zero]

/-- The block is seeking, with the match count of the bytes it has taken since it was between frames and `buf` as it was. -/
structure Seeking (mem : Memory) (pre : List Byte) (s : State) : Prop where
  st : s.st = .seekingSync
  m : s.m = matchCount pre
  inv : s.sectionInv
  buf : s.buf = mem

theorem seeking_of_betweenFrames (h : s.betweenFrames) : Seeking s.buf [] s :=
  ⟨h.1, h.2.1, sectionInv_of_betweenFrames h, rfl⟩

/-- What the invariant says does not depend on the byte source. -/
theorem taken_sectionInv (r : List Feed) (h : s.sectionInv) : (taken s r).sectionInv := by
  have hbytes := readBytes_congr (t := taken s r) (s := s) rfl
  have hread := memRead_congr (t := taken s r) (s := s) rfl
  unfold State.sectionInv at h ⊢
  simp only [State.headerChecked, State.absorbed, hbytes, hread] at h ⊢
  exact h

theorem select_seek (hq : s.quiet) (hfeed : s.feed = .byte b :: r) (hst : s.st = .seekingSync) :
    s.select = some (.fsmSeek b) := by
  obtain ⟨-, -, hrst, hstop, heos⟩ := hq
  rw [select_seekingSync hrst hst, hstop, if_neg Bool.false_ne_true, eosOrByte_of_byte heos hfeed]

/-- A byte that does not complete the preamble. -/
theorem reads_seek {mem : Memory} {pre : List Byte} (hP : Seeking mem pre s) (hq : s.quiet) (hfeed : s.feed = .byte b :: r)
    (hno : ¬ syncBytes <:+ pre ++ [b]) : ∃ t, Reads s t [b] r ∧ Seeking mem (pre ++ [b]) t := by
  have hmatch : syncMatch s.m b = some (matchCount (pre ++ [b])) := by rw [hP.m, syncMatch_matchCount hno]
  have hexec := exec_fsmSeek_of_count (s := taken s r) hP.st hmatch
  exact ⟨_, reads_of_exec hq hfeed (select_seek hq hfeed hP.st) rfl hexec rfl rfl, hP.st, rfl,
    fsmSeek_sectionInv (taken_sectionInv r hP.inv) hP.st hexec, hP.buf⟩

/-- A byte string without the preamble. -/
theorem reads_noPreamble (hq : s.quiet) (hb : s.betweenFrames) (hfeed : s.feed = bs.map .byte ++ rest)
    (hno : ¬ syncBytes <:+: bs) : ∃ t, Reads s t bs rest ∧ Seeking s.buf bs t :=
  reads_of_step (P := Seeking s.buf) (Ok := fun l => ¬ syncBytes <:+: l)
    (fun l k hl h => hl (h.trans (List.prefix_append l k).isInfix))
    (fun hP hq hfeed hok => reads_seek hP hq hfeed fun h => hok h.isInfix)
    (seeking_of_betweenFrames hb) hq hfeed hno

/-- Settles O25. -/
theorem noPreambleKeepsSeeking : Obligations.NoPreambleKeepsSeeking := by
  intro s bs rest hq hb hfeed hno
  obtain ⟨t, hread, hseek⟩ := reads_noPreamble hq hb hfeed hno
  exact ⟨t, hread.run, hseek.st, hread.feed, hread.cursor,
    by rw [output_of_quiet hread.quiet, output_of_quiet hq, hread.trace], hseek.buf⟩

/-! ### The preamble -/

/-- Settles O24: the three comparisons give 1, 2 and completion whatever the match count was, and completion sets the match
count itself. -/
theorem preambleRowIsThreeSeeks : Obligations.PreambleRowIsThreeSeeks := by
  intro s hst
  have hfirst : exec (.fsmSeek 0xAA) s = .next { s with m := 1 } := exec_fsmSeek_of_count hst (by simp [syncMatch])
  have hsecond : exec (.fsmSeek 0x44) { s with m := 1 } = .next { s with m := 2 } := exec_fsmSeek_of_count hst rfl
  have hthird : exec (.fsmSeek 0x12) { s with m := 2 } = .next s.preambleComplete := exec_fsmSeek_of_complete hst rfl
  refine ⟨by simp only [runOps, hfirst, hsecond, hthird, exec_sync hst], s.preambleComplete, exec_sync hst, rfl, rfl, rfl, rfl,
    computeCrc32_preamble.symm, readBytes_preambleComplete s, fun a => readByte_preambleComplete, rfl, rfl, rfl, rfl, rfl⟩

/-- The bytes so far are stored from address 0 on, `n` counts them, and the section's properties hold. -/
structure InFrame (st : SeqState) (pre : List Byte) (s : State) : Prop where
  st : s.st = st
  inv : s.sectionInv
  n : s.n.toNat = pre.length
  bytes : s.readBytes 0 pre.length = pre

/-- The first preamble starts the header. -/
theorem reads_preamble (hq : s.quiet) (hb : s.betweenFrames) (hfeed : s.feed = (bs ++ syncBytes).map .byte ++ rest)
    (hno : ¬ syncBytes <:+: bs ++ [0xAA, 0x44]) :
    ∃ t, Reads s t (bs ++ syncBytes) rest ∧ InFrame .readingHeader syncBytes t := by
  have hsplit : bs ++ syncBytes = bs ++ [0xAA, 0x44] ++ [0x12] := by simp [syncBytes]
  rw [hsplit, List.map_append, List.append_assoc] at hfeed
  obtain ⟨t, hread, hseek⟩ := reads_noPreamble hq hb hfeed hno
  have hm : t.m = 2 := by
    rw [hseek.m, matchCount, if_pos (List.suffix_append bs [0xAA, 0x44])]
  have hmatch : syncMatch t.m 0x12 = none := by rw [hm]; rfl
  have hexec := exec_fsmSeek_of_complete (s := taken t rest) hseek.st hmatch
  have hlast := reads_of_exec hread.quiet hread.feed (select_seek hread.quiet hread.feed hseek.st) rfl hexec rfl rfl
  rw [hsplit]
  exact ⟨_, hread.append hlast, rfl, fsmSeek_sectionInv (taken_sectionInv rest hseek.inv) hseek.st hexec, rfl,
    readBytes_preambleComplete _⟩

/-- Settles O26. -/
theorem firstPreambleStartsTheHeader : Obligations.FirstPreambleStartsTheHeader := by
  intro s bs rest hq hb hfeed hno
  obtain ⟨t, hread, hframe⟩ := reads_preamble hq hb hfeed hno
  have hrun := hread.run
  have hcursor := hread.cursor
  rw [List.length_append] at hrun hcursor
  have hinv := hframe.inv
  rw [State.sectionInv, hframe.st] at hinv
  obtain ⟨hm, -, hn, -⟩ := hinv
  have hn3 : t.n.toNat = 3 := hframe.n
  refine ⟨t, hrun, hframe.st, BitVec.eq_of_toNat_eq hn3, BitVec.eq_of_toNat_eq ?_, hm, hread.feed, hcursor,
    by rw [output_of_quiet hread.quiet, output_of_quiet hq, hread.trace]⟩
  change _ = 0
  omega

end Sys2Proof.Proofs
end

section
/-! Proofs about whole frames (43_frame_fsm.md R244 to R256; 95_test_vectors.md S-P2): each byte of a frame joins the bytes before it
in `buf`, the last one of each section turns to the next section, and Dispatching reads the header and the payload back. -/

namespace Sys2Proof.Proofs

open Sys2Proof.Machine Sys2Proof.Laws

variable {s t u : State} {i : Instr} {b : Byte} {r rest : List Feed} {pre payload : List Byte} {st st' : SeqState} {L : Half}

/-! ### One byte inside a frame -/

/-- Bytes in the middle of those stored from address 0 on. -/
theorem readBytes_middle {p q k : List Byte} (h : s.readBytes 0 (p ++ q ++ k).length = p ++ q ++ k) :
    s.readBytes p.length q.length = q := by
  have hfit : p.length + q.length ≤ (p ++ q ++ k).length := by simp
  have hslice := take_drop_readBytes s 0 _ p.length q.length hfit
  rw [h, Nat.zero_add] at hslice
  rw [← hslice]
  simp

theorem inFrame_of_appended (hF : InFrame st pre s) (happ : Appended b s t) (hst : t.st = st') : InFrame st' (pre ++ [b]) t := by
  have hbuf : t.buf = s.buf.write (0 + pre.length) b := by rw [happ.buf, hF.n, Nat.zero_add]
  refine ⟨hst, happ.inv, ?_, ?_⟩
  · rw [happ.n, hF.n, List.length_append, List.length_singleton]
  · rw [List.length_append, List.length_singleton, readBytes_write_end 0 _ hbuf, hF.bytes]

theorem taken_inFrame (r : List Feed) (h : InFrame st pre s) : InFrame st pre (taken s r) :=
  ⟨h.st, taken_sectionInv r h.inv, h.n, (readBytes_congr (t := taken s r) (s := s) rfl 0 pre.length).trans h.bytes⟩

/-- A row that takes a byte into the frame. -/
theorem reads_of_appended (hF : InFrame st pre s) (hq : s.quiet) (hfeed : s.feed = .byte b :: r) (hsel : s.select = some i)
    (htakes : Instr.takesByte i = true) (hexec : exec i (taken s r) = .next t) (happ : Appended b (taken s r) t)
    (hst : t.st = st') : Reads s t [b] r ∧ InFrame st' (pre ++ [b]) t :=
  ⟨reads_of_exec hq hfeed hsel htakes hexec happ.evt happ.trace, inFrame_of_appended (taken_inFrame r hF) happ hst⟩

/-! ### The header -/

theorem cnt_of_inFrame_header (hF : InFrame .readingHeader pre s) : pre.length = 3 + s.cnt.toNat := by
  have hinv := hF.inv
  rw [State.sectionInv, hF.st] at hinv
  obtain ⟨-, -, hn, -⟩ := hinv
  rw [← hF.n, hn]

theorem select_header (hq : s.quiet) (hfeed : s.feed = .byte b :: r) (hst : s.st = .readingHeader) :
    s.select = some (if s.moreHeader then .fsmHdr b else .fsmHdrLast b) := by
  obtain ⟨-, -, hrst, -, heos⟩ := hq
  rw [select_readingHeader hrst hst, eosOrByte_of_byte heos hfeed]

theorem reads_headerByte (hF : InFrame .readingHeader pre s) (hq : s.quiet) (hfeed : s.feed = .byte b :: r)
    (hlen : (pre ++ [b]).length ≤ 27) : ∃ t, Reads s t [b] r ∧ InFrame .readingHeader (pre ++ [b]) t := by
  rw [List.length_append, List.length_singleton, cnt_of_inFrame_header hF] at hlen
  have hcnt : s.cnt.toNat < 24 := by omega
  have hmore : s.moreHeader = true := decide_eq_true hcnt
  have hsel := select_header hq hfeed hF.st
  rw [if_pos hmore] at hsel
  obtain ⟨t, hexec, -⟩ := exec_completes (.fsmHdr b) (taken s r)
  obtain ⟨happ, hst⟩ := appended_fsmHdr (taken_inFrame r hF).inv hF.st hcnt hexec
  exact ⟨t, reads_of_appended hF hq hfeed hsel rfl hexec happ hst⟩

/-- Stored header bytes give back the header (S-P2). -/
theorem header_of_bytes {h : Header} {k : List Byte}
    (hbytes : s.readBytes 0 (syncBytes ++ headerBytes h ++ k).length = syncBytes ++ headerBytes h ++ k) : s.header = h := by
  have hmiddle := readBytes_middle hbytes
  rw [length_headerBytes] at hmiddle
  rw [State.header, ← headerOf_headerBytes h, ← hmiddle]
  rfl

/-- The fields the header checks read (R249). -/
theorem checkedFields_of_header {h : Header} (hh : s.header = h) : s.readByte 3 = h.f0 ∧ s.memRead 8 2 = h.f4 := by
  obtain ⟨-, hfields⟩ := headerFieldsComeFromTheirAddresses s
  rw [← hh, hfields]
  exact ⟨(memRead_one s 3).symm, rfl⟩

/-- The section behind the header, by the number of bytes so far: the payload ends at `28 + L`. -/
def sectionAfterHeader (L : Half) (k : Nat) : SeqState := if k < 28 + L.toNat then .readingPayload else .readingChecksum

/-- An empty payload is no section (R259). -/
theorem sectionAfterHeader_28 (L : Half) : sectionAfterHeader L 28 = if L = 0 then .readingChecksum else .readingPayload := by
  have hzero : 28 < 28 + L.toNat ↔ ¬ L = 0 := by
    rw [← BitVec.toNat_inj]
    exact Nat.lt_add_right_iff_pos.trans Nat.pos_iff_ne_zero
  rw [sectionAfterHeader, if_congr hzero rfl rfl, ite_not]

/-- The last header byte of a header that passes both checks. -/
theorem reads_headerLast {h : Header} (hF : InFrame .readingHeader pre s) (hq : s.quiet) (hfeed : s.feed = .byte b :: r)
    (hpre : pre ++ [b] = syncBytes ++ headerBytes h) (hf0 : h.f0 = 28) (hf4 : h.f4.toNat ≤ s.cfg.maxPayloadLen.toNat) :
    ∃ t, Reads s t [b] r ∧ InFrame (sectionAfterHeader h.f4 28) (syncBytes ++ headerBytes h) t ∧ t.L = h.f4 := by
  have hlen : pre.length = 27 := by
    have h := congrArg List.length hpre
    rw [List.length_append, List.length_append, length_headerBytes] at h
    exact Nat.succ.inj h
  have hcnt : 24 ≤ s.cnt.toNat := by
    have h := cnt_of_inFrame_header hF
    omega
  have hmore : ¬ s.moreHeader = true := by simpa [State.moreHeader] using hcnt
  have hsel := select_header hq hfeed hF.st
  rw [if_neg hmore] at hsel
  have hbytes : ((taken s r).headerComplete b).readBytes 0 (syncBytes ++ headerBytes h ++ []).length =
      syncBytes ++ headerBytes h ++ [] := by
    have hbuf : ((taken s r).headerComplete b).buf = s.buf.write (0 + pre.length) b := by rw [hlen]; rfl
    rw [List.append_nil, ← hpre, List.length_append, List.length_singleton, readBytes_write_end 0 _ hbuf, hF.bytes]
  obtain ⟨hheaderLength, hmessageLength⟩ := checkedFields_of_header (header_of_bytes hbytes)
  rw [hf0] at hheaderLength
  have hmax : (((taken s r).headerComplete b).memRead 8 2).toNat ≤ s.cfg.maxPayloadLen.toNat := by rwa [hmessageLength]
  have hexec := exec_fsmHdrLast (s := taken s r) (b := b) hF.st hcnt rfl
  rw [if_pos ⟨(validateHeaderLength_25_iff _).mpr hheaderLength, (lengthAllowed_iff _ _).mpr hmax⟩] at hexec
  have happ := appended_headerComplete (taken_inFrame r hF).inv hF.st hcnt rfl hheaderLength hmax rfl
  have hst : (if ((taken s r).headerComplete b).memRead 8 2 = 0 then SeqState.readingChecksum else .readingPayload) =
      sectionAfterHeader h.f4 28 := by rw [hmessageLength, sectionAfterHeader_28]
  obtain ⟨hread, hframe⟩ := reads_of_appended hF hq hfeed hsel rfl hexec happ hst
  exact ⟨_, hread, hpre ▸ hframe, hmessageLength⟩

/-! ### The payload -/

theorem select_payload (hq : s.quiet) (hfeed : s.feed = .byte b :: r) (hst : s.st = .readingPayload) :
    s.select = some (.fsmPld b) := by
  obtain ⟨-, -, hrst, -, heos⟩ := hq
  rw [select_readingPayload hrst hst, eosOrByte_of_byte heos hfeed]

theorem reads_payloadByte (hF : InFrame (sectionAfterHeader L pre.length) pre s) (hL : s.L = L) (hq : s.quiet)
    (hfeed : s.feed = .byte b :: r) (hlen : (pre ++ [b]).length ≤ 28 + L.toNat) :
    ∃ t, Reads s t [b] r ∧ InFrame (sectionAfterHeader L (pre ++ [b]).length) (pre ++ [b]) t ∧ t.L = L := by
  rw [List.length_append, List.length_singleton] at hlen
  have hst : s.st = .readingPayload := hF.st.trans (if_pos hlen)
  obtain ⟨t, hexec, -⟩ := exec_completes (.fsmPld b) (taken s r)
  obtain ⟨happ, hLt, hstt⟩ := appended_fsmPld (taken_inFrame r hF).inv hst hexec
  have hst' : t.st = sectionAfterHeader L (pre ++ [b]).length := by
    have hend : (taken s r).n.toNat + 1 = 28 + (taken s r).L.toNat ↔ ¬ pre.length + 1 < 28 + L.toNat := by
      change s.n.toNat + 1 = 28 + s.L.toNat ↔ _
      rw [hF.n, hL]
      omega
    rw [hstt, if_congr hend rfl rfl, ite_not, sectionAfterHeader, List.length_append, List.length_singleton]
  obtain ⟨hread, hframe⟩ := reads_of_appended hF hq hfeed (select_payload hq hfeed hst) rfl hexec happ hst'
  exact ⟨t, hread, hframe, hLt.trans hL⟩

/-! ### The checksum -/

theorem select_checksum (hq : s.quiet) (hfeed : s.feed = .byte b :: r) (hst : s.st = .readingChecksum) :
    s.select = some (if s.moreChecksum then .fsmCrc b else .fsmCrcLast b) := by
  obtain ⟨-, -, hrst, -, heos⟩ := hq
  rw [select_readingChecksum hrst hst, eosOrByte_of_byte heos hfeed]

theorem select_checksumLast (hq : s.quiet) (hfeed : s.feed = .byte b :: r) (hst : s.st = .readingChecksum)
    (hcnt : s.cnt = 3) : s.select = some (.fsmCrcLast b) := by
  have hmore : ¬ s.moreChecksum = true := by simp [State.moreChecksum, hcnt]
  rw [select_checksum hq hfeed hst, if_neg hmore]

theorem cnt_of_inFrame_checksum (hF : InFrame .readingChecksum pre s) : pre.length = 28 + s.L.toNat + s.cnt.toNat := by
  have hinv := hF.inv
  rw [State.sectionInv, hF.st] at hinv
  obtain ⟨-, hn, -⟩ := hinv
  rw [← hF.n, hn]

theorem reads_checksumByte (hF : InFrame .readingChecksum pre s) (hL : s.L = L) (hq : s.quiet) (hfeed : s.feed = .byte b :: r)
    (hlen : (pre ++ [b]).length ≤ 31 + L.toNat) :
    ∃ t, Reads s t [b] r ∧ InFrame .readingChecksum (pre ++ [b]) t ∧ t.L = L := by
  rw [List.length_append, List.length_singleton, cnt_of_inFrame_checksum hF, hL] at hlen
  have hcnt : s.cnt.toNat < 3 := by omega
  have hmore : s.moreChecksum = true := decide_eq_true hcnt
  have hsel := select_checksum hq hfeed hF.st
  rw [if_pos hmore] at hsel
  obtain ⟨t, hexec, -⟩ := exec_completes (.fsmCrc b) (taken s r)
  obtain ⟨happ, hLt, hst⟩ := appended_fsmCrc (taken_inFrame r hF).inv hF.st hcnt hexec
  obtain ⟨hread, hframe⟩ := reads_of_appended hF hq hfeed hsel rfl hexec happ hst
  exact ⟨t, hread, hframe, hLt.trans hL⟩

/-! ### The sections of a frame -/

theorem length_le_of_append (bound : Nat) (l k : List Byte) (h : (l ++ k).length ≤ bound) : l.length ≤ bound := by
  rw [List.length_append] at h
  omega

theorem reads_header {h : Header} (hF : InFrame .readingHeader syncBytes s) (hq : s.quiet)
    (hfeed : s.feed = (headerBytes h).map .byte ++ rest) (hf0 : h.f0 = 28) (hf4 : h.f4.toNat ≤ s.cfg.maxPayloadLen.toNat) :
    ∃ t, Reads s t (headerBytes h) rest ∧ InFrame (sectionAfterHeader h.f4 28) (syncBytes ++ headerBytes h) t ∧
      t.L = h.f4 := by
  obtain ⟨init, last, hsplit⟩ : ∃ init last, headerBytes h = init ++ [last] := by
    have hne : headerBytes h ≠ [] := fun hnil => by simpa [hnil] using length_headerBytes h
    exact ⟨_, _, (List.dropLast_append_getLast hne).symm⟩
  have hlen : (syncBytes ++ init).length ≤ 27 := by
    have h25 := congrArg List.length hsplit
    rw [length_headerBytes, List.length_append, List.length_singleton] at h25
    rw [List.length_append]
    exact (Nat.add_comm 3 _).trans_le (by omega)
  rw [hsplit, List.map_append, List.append_assoc] at hfeed
  obtain ⟨t, hread, hframe⟩ := reads_of_step (P := InFrame .readingHeader) (Ok := fun l => l.length ≤ 27)
    (length_le_of_append 27) reads_headerByte hF hq hfeed hlen
  have hf4t : h.f4.toNat ≤ t.cfg.maxPayloadLen.toNat := by rwa [hread.cfg]
  have hpre : syncBytes ++ init ++ [last] = syncBytes ++ headerBytes h := by rw [List.append_assoc, ← hsplit]
  obtain ⟨u, hlast, hframe', hL⟩ := reads_headerLast hframe hread.quiet hread.feed hpre hf0 hf4t
  exact ⟨u, hsplit ▸ hread.append hlast, hframe', hL⟩

theorem reads_payload (hF : InFrame (sectionAfterHeader L pre.length) pre s) (hL : s.L = L) (hq : s.quiet)
    (hfeed : s.feed = payload.map .byte ++ rest) (hpre : pre.length = 28) (hlen : L.toNat = payload.length) :
    ∃ t, Reads s t payload rest ∧ InFrame .readingChecksum (pre ++ payload) t ∧ t.L = L := by
  have htotal : (pre ++ payload).length = 28 + L.toNat := by rw [List.length_append, hpre, hlen]
  obtain ⟨t, hread, hframe, hLt⟩ := reads_of_step
    (P := fun pre s => InFrame (sectionAfterHeader L pre.length) pre s ∧ s.L = L)
    (Ok := fun l => l.length ≤ 28 + L.toNat) (length_le_of_append (28 + L.toNat))
    (fun hP => reads_payloadByte hP.1 hP.2) ⟨hF, hL⟩ hq hfeed htotal.le
  rw [htotal, sectionAfterHeader, if_neg (lt_irrefl _)] at hframe
  exact ⟨t, hread, hframe, hLt⟩

theorem reads_checksum {c : List Byte} (hF : InFrame .readingChecksum pre s) (hL : s.L = L) (hq : s.quiet)
    (hfeed : s.feed = c.map .byte ++ rest) (hlen : (pre ++ c).length ≤ 31 + L.toNat) :
    ∃ t, Reads s t c rest ∧ InFrame .readingChecksum (pre ++ c) t ∧ t.L = L :=
  reads_of_step (P := fun pre s => InFrame .readingChecksum pre s ∧ s.L = L) (Ok := fun l => l.length ≤ 31 + L.toNat)
    (length_le_of_append (31 + L.toNat)) (fun hP => reads_checksumByte hP.1 hP.2) ⟨hF, hL⟩ hq hfeed hlen

/-- The bytes of a frame that its checksum covers (R90). -/
def covered (h : Header) (payload : List Byte) : List Byte := syncBytes ++ headerBytes h ++ payload

theorem length_covered (h : Header) (payload : List Byte) : (covered h payload).length = 28 + payload.length := by
  rw [covered, List.length_append, List.length_append, length_headerBytes]
  rfl

/-- The block takes the covered bytes of a frame with a good header. -/
theorem reads_covered {h : Header} (hq : s.quiet) (hb : s.betweenFrames) (hf0 : h.f0 = 28)
    (hf4 : h.f4.toNat = payload.length) (hmax : payload.length ≤ s.cfg.maxPayloadLen.toNat)
    (hfeed : s.feed = (covered h payload).map .byte ++ rest) :
    ∃ t, Reads s t (covered h payload) rest ∧ InFrame .readingChecksum (covered h payload) t ∧ t.L = h.f4 := by
  rw [covered, List.map_append, List.map_append, List.append_assoc, List.append_assoc] at hfeed
  obtain ⟨t, hpreamble, hframe⟩ := reads_preamble (bs := []) hq hb hfeed (by decide)
  have hmaxt : h.f4.toNat ≤ t.cfg.maxPayloadLen.toNat := by rwa [hpreamble.cfg, hf4]
  obtain ⟨u, hheader, hframe, hL⟩ := reads_header hframe hpreamble.quiet hpreamble.feed hf0 hmaxt
  have hlen : (syncBytes ++ headerBytes h).length = 28 := by
    rw [List.length_append, length_headerBytes]
    rfl
  rw [← hlen] at hframe
  obtain ⟨v, hpayload, hframe, hL⟩ := reads_payload hframe hL hheader.quiet hheader.feed hlen hf4
  exact ⟨v, (hpreamble.append hheader).append hpayload, hframe, hL⟩

/-! ### The last byte of a frame -/

/-- Before its last byte, a frame's accumulator holds the CRC of the covered bytes, and the last byte completes the received
checksum (R254). -/
theorem checksum_of_inFrame {pre c : List Byte} (hF : InFrame .readingChecksum (pre ++ c) s)
    (hpre : pre.length = 28 + s.L.toNat) (hc : c.length = 3) (b : Byte) :
    s.crcAcc = computeCrc32 pre ∧ (b.setWidth 32 <<< 24) ^^^ s.crcRx = BitVec.ofNat 32 (le (c ++ [b])) := by
  have hcnt := cnt_of_inFrame_checksum hF
  rw [List.length_append, hpre, hc, Nat.add_left_cancel_iff] at hcnt
  have hinv := hF.inv
  rw [State.sectionInv, hF.st] at hinv
  obtain ⟨-, -, -, -, habs, -, hrx⟩ := hinv
  have hbytes := hF.bytes
  have hfirst : s.readBytes 0 pre.length = pre := readBytes_middle (p := []) (q := pre) (k := c) hbytes
  have hlast : s.readBytes pre.length c.length = c := readBytes_middle (p := pre) (q := c) (k := []) (by rwa [List.append_nil])
  rw [← hcnt, ← hpre, ← hc, hlast] at hrx
  rw [hrx, shiftLeft_xor_ofNat_le hc]
  exact ⟨by rw [habs.2, ← hpre, hfirst], rfl⟩

/-- The block takes all of a frame but its last byte, whatever the checksum field holds. -/
theorem reads_allButLast {h : Header} (hq : s.quiet) (hb : s.betweenFrames) (hf0 : h.f0 = 28)
    (hf4 : h.f4.toNat = payload.length) (hmax : payload.length ≤ s.cfg.maxPayloadLen.toNat) (c : Word)
    (hfeed : s.feed = (covered h payload ++ leBytes 4 c.toNat).map .byte ++ rest) :
    ∃ t init last, leBytes 4 c.toNat = init ++ [last] ∧ Reads s t (covered h payload ++ init) (.byte last :: rest) ∧
      InFrame .readingChecksum (covered h payload ++ init) t ∧ t.L = h.f4 ∧ t.cnt = 3 ∧
      t.crcAcc = computeCrc32 (covered h payload) ∧ (last.setWidth 32 <<< 24) ^^^ t.crcRx = c := by
  obtain ⟨init, last, hsplit⟩ : ∃ init last, leBytes 4 c.toNat = init ++ [last] :=
    ⟨(leBytes 4 c.toNat).take 3, _, rfl⟩
  have hinit : init.length = 3 := by
    have h4 := congrArg List.length hsplit
    rw [length_leBytes, List.length_append] at h4
    exact (Nat.succ.inj h4).symm
  rw [hsplit, List.map_append, List.map_append, List.append_assoc, List.append_assoc] at hfeed
  obtain ⟨t, hread, hframe, hL⟩ := reads_covered hq hb hf0 hf4 hmax hfeed
  have hlen : (covered h payload ++ init).length = 31 + h.f4.toNat := by
    rw [List.length_append, length_covered, hinit, hf4]
    omega
  obtain ⟨u, hread', hframe, hL⟩ := reads_checksum hframe hL hread.quiet hread.feed hlen.le
  have hcovered : (covered h payload).length = 28 + u.L.toNat := by rw [length_covered, hL, hf4]
  obtain ⟨hacc, hsum⟩ := checksum_of_inFrame hframe hcovered hinit last
  have hcnt := cnt_of_inFrame_checksum hframe
  rw [hlen, ← hL] at hcnt
  have hcnt3 : u.cnt.toNat = 3 := by omega
  rw [← hsplit] at hsum
  exact ⟨u, init, last, hsplit, hread.append hread', hframe, hL, BitVec.eq_of_toNat_eq hcnt3, hacc,
    hsum.trans (ofNat_le_leBytes 4 c)⟩

theorem frameWith_eq (h : Header) (payload : List Byte) :
    frameWith h payload = covered h payload ++ leBytes 4 (computeCrc32 (covered h payload)).toNat := rfl

/-- The block takes a whole frame with a good checksum. -/
theorem reads_frame {h : Header} (hq : s.quiet) (hb : s.betweenFrames) (hf0 : h.f0 = 28)
    (hf4 : h.f4.toNat = payload.length) (hmax : payload.length ≤ s.cfg.maxPayloadLen.toNat)
    (hfeed : s.feed = (frameWith h payload).map .byte ++ rest) :
    ∃ t, Reads s t (frameWith h payload) rest ∧ InFrame .dispatching (frameWith h payload) t ∧ t.L = h.f4 := by
  rw [frameWith_eq] at hfeed ⊢
  obtain ⟨t, init, last, hsplit, hread, hframe, hL, hcnt, hacc, hsum⟩ := reads_allButLast hq hb hf0 hf4 hmax _ hfeed
  have hsel := select_checksumLast hread.quiet hread.feed hframe.st hcnt
  have hcnt3 : 3 ≤ t.cnt.toNat := by rw [hcnt]; rfl
  obtain ⟨u, hexec, -⟩ := exec_completes (.fsmCrcLast last) (taken t rest)
  obtain ⟨happ, hLu, hst⟩ := appended_fsmCrcLast (taken_inFrame rest hframe).inv hframe.st hcnt3 (hsum.trans hacc.symm) hexec
  obtain ⟨hlast, hframe'⟩ := reads_of_appended hframe hread.quiet hread.feed hsel rfl hexec happ hst
  rw [hsplit, ← List.append_assoc]
  exact ⟨u, hread.append hlast, hframe', hLu.trans hL⟩

/-! ### Dispatching -/


/-- Sampling looks at the feed and replaces levels. -/
theorem sample_congr (hfeed : s.feed = t.feed) (hrst : s.rst = t.rst) :
    s.sample.feed = t.sample.feed ∧ s.sample.rst = t.sample.rst := by
  unfold State.sample
  rw [hfeed]
  split <;> simp [hfeed, hrst]

theorem length_frameWith (h : Header) (payload : List Byte) : (frameWith h payload).length = 32 + payload.length := by
  rw [frameWith_eq, List.length_append, length_covered, length_leBytes]
  omega

/-- A step in Dispatching runs FSM.DISP on the sampled state. -/
theorem step_dispatching (hq : s.quiet) (hst : s.st = .dispatching) (hrst : s.sample.rst = false) :
    step s = exec .fsmDisp s.sample := by
  obtain ⟨hop, hevt, -⟩ := hq
  exact step_of_select hop (.inr hevt) (select_dispatching hrst ((sample_st s).trans hst))

/-- A frame whose payload decoder gives a body is decoded to that body (R256). -/
theorem frame_is_decoded {h : Header} {body : Body} (hq : s.quiet) (hb : s.betweenFrames) (hf0 : h.f0 = 28)
    (hf4 : h.f4.toNat = payload.length) (hmax : payload.length ≤ s.cfg.maxPayloadLen.toNat)
    (hfeed : s.feed = (frameWith h payload).map .byte ++ rest) (hrst : { s with feed := rest }.sample.rst = false)
    (hbody : ∀ (t : State) (use : Body → Result), t.readBytes 28 payload.length = payload →
      dispatchPayload h.f1 h.f4 t use = use body) :
    ∃ t, core.run (33 + payload.length) s = .next t ∧
      t.evt = some ⟨.frame h body, BitVec.ofNat 17 (32 + payload.length)⟩ ∧ t.betweenFrames ∧
      t.feed = { s with feed := rest }.sample.feed ∧ t.cursor = s.cursor + 32 + payload.length ∧ t.trace = s.trace := by
  obtain ⟨t, hread, hframe, hL⟩ := reads_frame hq hb hf0 hf4 hmax hfeed
  have hsampled := sample_congr (s := t) (t := { s with feed := rest }) hread.feed
    (hread.quiet.2.2.1.trans hq.2.2.1.symm)
  have hbytes : t.sample.readBytes 0 (frameWith h payload).length = frameWith h payload := by
    rw [readBytes_congr (sample_buf t), hframe.bytes]
  have hheader : t.sample.header = h := by
    rw [frameWith_eq, covered, List.append_assoc] at hbytes
    exact header_of_bytes hbytes
  have hpayload : t.sample.readBytes 28 payload.length = payload := by
    rw [frameWith_eq, covered] at hbytes
    have hmiddle := readBytes_middle hbytes
    rwa [List.length_append, length_headerBytes] at hmiddle
  have hn : t.n = BitVec.ofNat 17 (32 + payload.length) := by
    rw [← length_frameWith h, ← hframe.n, BitVec.ofNat_toNat, BitVec.setWidth_eq]
  have hexec : exec .fsmDisp t.sample = .next (t.sample.afterFrame h body) := by
    rw [exec_fsmDisp ((sample_st t).trans hframe.st), hheader, sample_L, hL, hbody _ _ hpayload]
  have hstep := step_dispatching hread.quiet hframe.st (hsampled.2.trans hrst)
  have hrun : core.run (33 + payload.length) s = .next (t.sample.afterFrame h body) := by
    rw [show 33 + payload.length = (frameWith h payload).length + 1 by rw [length_frameWith]; omega, run_add 1 hread.run]
    exact (run_one t).trans (hstep.trans hexec)
  refine ⟨t.sample.afterFrame h body, hrun, ?evt, afterFrame_betweenFrames _ _ _, hsampled.1, ?cursor, ?trace⟩
  case evt =>
    rw [← hn, ← sample_n]
    rfl
  case cursor =>
    change t.sample.cursor = _
    rw [sample_cursor, hread.cursor, length_frameWith, Nat.add_assoc]
  case trace =>
    change t.sample.output = _
    rw [State.output, sample_trace, sample_evt, hread.quiet.2.1, hread.trace]
    simp

/-- Settles O56: any other ID is not decoded further. -/
theorem unrecognizedFrameIsDecoded : Obligations.UnrecognizedFrameIsDecoded := by
  intro s h payload rest hq hb hfeed hf0 hf4 hmax hpos hvel hrst
  exact frame_is_decoded hq hb hf0 hf4 hmax hfeed hrst fun t use _ => dispatchPayload_unrecognized hpos hvel

/-- Settles O57: the payload read back is the record's 72 bytes. -/
theorem bestposFrameIsDecoded : Obligations.BestposFrameIsDecoded := by
  intro s h r rest hq hb hfeed hf0 hf1 hf4 hmax hrst
  have hlen : (bestposBytes r).length = 72 := by
    simp only [bestposBytes, List.length_append, length_bytesOf, List.length_cons, List.length_nil]
  have hdecoded := frame_is_decoded hq hb hf0 (by rw [hf4, hlen]; rfl) (by rwa [hlen]) hfeed hrst fun t use ht => by
    rw [hlen] at ht
    rw [dispatchPayload_bestpos hf1 hf4, decodeBestpos_of_readBytes ht]
  rwa [hlen] at hdecoded

/-- Settles O58: the payload read back is the record's 44 bytes. -/
theorem bestvelFrameIsDecoded : Obligations.BestvelFrameIsDecoded := by
  intro s h r rest hq hb hfeed hf0 hf1 hf4 hmax hrst
  have hlen : (bestvelBytes r).length = 44 := by
    simp only [bestvelBytes, List.length_append, length_bytesOf]
  have hdecoded := frame_is_decoded hq hb hf0 (by rw [hf4, hlen]; rfl) (by rwa [hlen]) hfeed hrst fun t use ht => by
    rw [hlen] at ht
    rw [dispatchPayload_bestvel hf1 hf4, decodeBestvel_of_readBytes ht]
  rwa [hlen] at hdecoded

/-! ### A bad checksum -/

/-- Settles O59: the last checksum byte completes a checksum that differs, in the state that has stored the whole frame. -/
theorem badChecksumIsDropped : Obligations.BadChecksumIsDropped := by
  intro s h payload c rest hq hb hfeed hf0 hf4 hmax hbad
  rw [← covered] at hfeed hbad ⊢
  obtain ⟨t, init, last, hsplit, hread, hframe, hL, hcnt, hacc, hsum⟩ := reads_allButLast hq hb hf0 hf4 hmax c hfeed
  have hlen : (covered h payload ++ init).length = 31 + t.L.toNat := by
    have h3 := cnt_of_inFrame_checksum hframe
    rw [hcnt] at h3
    exact h3.trans (by simp; omega)
  have hmaxt : t.L.toNat ≤ t.cfg.maxPayloadLen.toNat := by rwa [hL, hf4, hread.cfg]
  have hdiffer : ¬ (last.setWidth 32 <<< 24) ^^^ t.crcRx = t.crcAcc := by rwa [hsum, hacc]
  have hstep := step_of_byte hread.quiet hread.feed (select_checksumLast hread.quiet hread.feed hframe.st hcnt) rfl
  generalize hu : ({ taken t rest with
    buf := t.buf.write (31 + t.L.toNat) last, n := BitVec.ofNat 17 (32 + t.L.toNat)
    crcRx := (last.setWidth 32 <<< 24) ^^^ t.crcRx } : State) = u
  have hexec := checksumCompleteTransition (taken t rest) u last hframe.st hcnt hmaxt hu.symm
  rw [if_neg (by rwa [← hu])] at hexec
  have hbuf : u.buf = t.buf.write (0 + (covered h payload ++ init).length) last := by rw [← hu, Nat.zero_add, hlen]
  have hraw : u.readBytes 0 (32 + t.L.toNat) = covered h payload ++ leBytes 4 c.toNat := by
    rw [show 32 + t.L.toNat = (covered h payload ++ init).length + 1 by omega, readBytes_write_end 0 _ hbuf, hframe.bytes,
      hsplit, List.append_assoc]
  have hn : u.n = BitVec.ofNat 17 (32 + t.L.toNat) := by rw [← hu]
  have hnNat : u.n.toNat = 32 + t.L.toNat := by
    rw [hn, BitVec.toNat_ofNat]
    omega
  have hcfg : u.cfg = s.cfg := by
    rw [← hu]
    exact hread.cfg
  have hpayload : payload.length = t.L.toNat := by rw [hL, hf4]
  have hrun : core.run (32 + payload.length) s = .next (u.afterDrop .checksumMismatch) := by
    rw [show 32 + payload.length = (covered h payload ++ init).length + 1 by omega, run_add 1 hread.run]
    exact (run_one t).trans (hstep.trans hexec)
  refine ⟨u.afterDrop .checksumMismatch, hrun, ?evt, afterDrop_betweenFrames _ _, ?feed, ?trace⟩
  case evt => rw [State.afterDrop, hnNat, hn, hraw, hcfg, hpayload]
  case feed =>
    rw [State.afterDrop, ← hu]
    rfl
  case trace =>
    change u.output = _
    rw [← hread.trace, ← output_of_quiet hread.quiet, ← hu]
    rfl

end Sys2Proof.Proofs
end
